-- ==== Sys2Proof/Word.lean ====
section
/-! DEFINITION. The word types of the RA-416: bytes of the aux lane, values of the air clock and
the samples of the trunk slots (00_scope.md, Conventions). -/

namespace Sys2Proof

/-- One byte of a trunk frame or of the aux lane. -/
abbrev Byte := BitVec 8

/-- An air clock value: a 32-bit count of egress frames that wraps modulo 2^32 (Conventions, Time). -/
abbrev AC := BitVec 32

/-- A sample: 24-bit two's complement (Conventions, Audio values).  Clip memory words and slot
words are samples. -/
abbrev Sample := BitVec 24

end Sys2Proof
end

