-- ==== Sys2Proof/Config.lean ====
section
/-! DEFINITION. The fixed numbers of the part: sizes, capacities and limits that the manual states
once and no command changes, and the two free values of the model. -/

namespace Sys2Proof.Config

/-- Counters saturate here unless another limit is stated (Conventions, Numbers and units). -/
abbrev counterLimit : Nat := 65535
/-- The unity gain code (Conventions, Gain codes). -/
abbrev unityCode : Nat := 3840
/-- The greatest gain code. -/
abbrev maxCode : Nat := 4095
/-- Frames in a block. -/
abbrev blockFrames : Nat := 32
/-- Words in a page of clip memory (R19). -/
abbrev pageWords : Nat := 65536
/-- Pages of clip memory (R19). -/
abbrev pages : Nat := 4096
/-- Entries of the directory (section 2.3). -/
abbrev dirEntries : Nat := 1024
/-- Bytes the pass-through FIFO holds (R15). -/
abbrev fifoBytes : Nat := 512
/-- The FIFO depth up to which the egress merger starts a local packet (R16). -/
abbrev localStartDepth : Nat := 300
/-- Entries of the arm list (R24, R25). -/
abbrev armEntries : Nat := 8
/-- Records of one break queue (R104). -/
abbrev queueRecords : Nat := 8
/-- Item records of the pool (R105). -/
abbrev poolItems : Nat := 384
/-- Items of one break (section 6.1). -/
abbrev breakItems : Nat := 24
/-- Complete commands the command queue holds (R181). -/
abbrev commandQueue : Nat := 8
/-- Packets the reply queue holds (R184). -/
abbrev replyQueue : Nat := 16
/-- Records the as-run queue holds (R169). -/
abbrev asrunRecords : Nat := 256
/-- Depth at which ASRUN_HIGH is active (R170). -/
abbrev asrunHigh : Nat := 192
/-- Shortest clip of an item, in clip frames (R106). -/
abbrev itemFrames : Nat := 2048
/-- The minimum preroll in frames (R94, R135, R136). -/
abbrev preroll : Nat := 64
/-- Frames from a segment's reference frame to the assembly deadline (R178, R179). -/
abbrev assemblyFrames : Nat := 4800
/-- The unsqueezed factor (Conventions, Steps and squeeze). -/
abbrev unitFactor : Nat := 65536
/-- The largest squeeze factor (Conventions, Steps and squeeze). -/
abbrev maxFactor : Nat := 68157
/-- The minimum airing before the return point, in frames (R128). -/
abbrev minAiring : Nat := 48000
/-- The signed modular comparison reaches this far (R89). -/
abbrev acReach : Nat := 2147483647

/-- FREE VALUE (log entry 46): how many channels the cue being decoded has visited when a DEVICE_RESET is
taken, 0 for none begun (R101).  The argument is the number of the draw.  Nothing constrains it. -/
opaque cueVisited : Nat → Nat

/-- Where the start of a voice, and its first output, fall among the fade and the cancel that a join sends
it in the frame it starts in (R49, R142). -/
inductive StartOrder where
  /-- The fade, the cancel: the voice never starts. -/
  | never
  /-- The start, the fade, the output. -/
  | first
  /-- The start with its output, the fade. -/
  | outputFirst
  /-- The fade, the start, the cancel: no output. -/
  | between
  /-- The fade, the start with its output, the cancel. -/
  | outputBetween
  deriving DecidableEq, Repr, Inhabited

/-- FREE VALUE (log entry 48): the order taken where a join meets the start of one of its voices (R49).
The argument is the number of the draw.  Nothing constrains it. -/
opaque startOrder : Nat → StartOrder

end Sys2Proof.Config
end

