-- ==== Sys2Proof/Syntax.lean ====
section
/-! DEFINITION. The commands of the block: one constructor per row of spec/opcode_table.json, in
the table's order.  A row carries only what comes from outside the part (a byte or frame of the
trunk in, the contact samples, the strap pins) or names the unit that takes the step (a channel, a
voice, a break number).  What a cue or a management command says is already in the part when its
row is taken: in the routed packet, or in the command queue. -/

namespace Sys2Proof

/-- A trunk frame (section 1.1): sync, sixteen slots, four aux bytes, the check byte and the fill. -/
structure TrunkFrame where
  sync0 : Byte
  sync1 : Byte
  slots : Vector Sample 16
  aux   : Vector Byte 4
  check : Byte
  fill  : Vector Byte 9
  deriving DecidableEq, Repr

/-- The rows of spec/opcode_table.json. -/
inductive Instr where
  /-- POWER_ON_RESET (R18): the strap pins' value, and the contact samples of the first frame. -/
  | powerOnReset (straps gpi : Byte)
  /-- SYNC_FOUND (R3): one ingress byte examined in SEARCH together with the byte before it. -/
  | syncFound (b : Byte)
  /-- VERIFY_FRAME (R4): the two bytes at the expected frame start. -/
  | verifyFrame (b0 b1 : Byte)
  /-- INGRESS_FRAME (R1): the frame, and how many egress frames were formed since it began to
  arrive (R13 counts the reference frame from the egress frame being sent at that moment). -/
  | ingressFrame (f : TrunkFrame) (formedSince : Nat)
  | ingestLimit
  | ingestRegionEnd
  | ingestCueStop
  /-- EGRESS_FRAME_FOLLOW (R7): the contact samples of this frame (R162 reads them in a boundary
  frame only). -/
  | egressFrameFollow (gpi : Byte)
  | holdoverPeriodExpiry (gpi : Byte)
  | silenceLimitReached (c : Nat)
  | recoveryLimitReached (c : Nat)
  | voiceStart (v : Nat)
  | voiceEnd (v : Nat)
  | voiceFaded (v : Nat)
  | voiceEventDelivery
  | breakOpen (c : Nat)
  | join (c : Nat)
  | breakExpiry (c n : Nat)
  | timeTrigger (c : Nat)
  | assemblyTimeout
  | gpiLevelChange (gpi : Byte)
  | openCue
  | closeCue
  | recordStart
  | recordStop
  | timeMark
  | unknownCue
  | command
  | commandMore
  | replyPacketQueued
  | unknownCommand
  | identify
  | unitSet
  | deviceReset
  | statusRead
  | alertSet
  | alertClear
  | channelSet
  | channelReset
  | clockSet
  | dirRead
  | dirWrite
  | dirErase
  | ingestArm
  | ingestStop
  | ringRetire
  | breakLoadFirstPart
  | breakLoadContinuation
  | breakCancel
  | breakList
  | breakFire
  | breakAbort
  | voiceTrim
  | cartFire
  | gpiSet
  | gpoSet
  | asrunFetch
  | asrunDiscard
  | firstHoldoverFrame (gpi : Byte)
  deriving DecidableEq, Repr

end Sys2Proof
end

