-- ==== Sys2Proof/WellFormed.lean ====
section
/-! DEFINITION. When a command names something the part has: a channel 0..3, a voice 0..15, a
break number 1..65,535 (Conventions, Names; section 6.1), and an arrival lag an ingress frame can
have (two egress frames at most begin inside one frame period, since a holdover period is 508
reference clock periods or more and a frame 512). -/

namespace Sys2Proof

/-- The operand checks, one per operand kind. -/
def Instr.wellFormed : Instr → Bool
  | .ingressFrame _ formedSince => decide (formedSince ≤ 2)
  | .silenceLimitReached c => decide (c < 4)
  | .recoveryLimitReached c => decide (c < 4)
  | .voiceStart v => decide (v < 16)
  | .voiceEnd v => decide (v < 16)
  | .voiceFaded v => decide (v < 16)
  | .breakOpen c => decide (c < 4)
  | .join c => decide (c < 4)
  | .breakExpiry c n => decide (c < 4) && decide (1 ≤ n) && decide (n ≤ 65535)
  | .timeTrigger c => decide (c < 4)
  | .powerOnReset _ _ | .syncFound _ | .verifyFrame _ _ | .ingestLimit | .ingestRegionEnd
  | .ingestCueStop | .egressFrameFollow _ | .holdoverPeriodExpiry _ | .voiceEventDelivery
  | .assemblyTimeout | .gpiLevelChange _ | .openCue | .closeCue | .recordStart | .recordStop
  | .timeMark | .unknownCue | .command | .commandMore | .replyPacketQueued | .unknownCommand
  | .identify | .unitSet | .deviceReset | .statusRead | .alertSet | .alertClear | .channelSet
  | .channelReset | .clockSet | .dirRead | .dirWrite | .dirErase | .ingestArm | .ingestStop
  | .ringRetire | .breakLoadFirstPart | .breakLoadContinuation | .breakCancel | .breakList
  | .breakFire | .breakAbort | .voiceTrim | .cartFire | .gpiSet | .gpoSet | .asrunFetch
  | .asrunDiscard | .firstHoldoverFrame _ => true

end Sys2Proof
end

