-- ==== Sys2Proof/Machine/State.lean ====
section
/-! DEFINITION. The state of the RA-416 as plain data: for each block of the overview
(00_scope.md) a structure with every piece of state the manual gives it, the queue of waiting
commands, and `State.reset`, the part after a power-on reset (R18, R39, R63, R64, R86, R101, R116,
R152, R167, R176, R194).  A field the manual calls absent in some state is an `Option`. -/

namespace Sys2Proof.Machine

/-- Why a step stops.  Only a command that names a unit the part does not have stops; every
command with operands in range runs. -/
inductive Fault where
  /-- Raised by the channel rows for a channel number above 3.  Safe: the part has four channels. -/
  | noSuchChannel
  /-- Raised by the voice rows for a voice number above 15.  Safe: the part has sixteen voices. -/
  | noSuchVoice
  /-- Raised by BREAK_EXPIRY for a break number outside 1..65,535.  Safe: no record has one. -/
  | noSuchBreak
  /-- Raised by INGRESS_FRAME for an arrival lag above 2.  Safe: no frame period holds more than
  two egress starts. -/
  | noSuchLag
  deriving DecidableEq, Repr

/-- Why a command has no meaning in the model. -/
inductive Refusal where
  /-- Raised by `exec` for a row whose meaning is not written.  Safe; no row is left so. -/
  | notModelled (mnemonic : String)
  deriving DecidableEq, Repr

/-! ### Trunk receiver (chapter 1) -/

/-- The receiver's lock states (section 1.2). -/
inductive LockState where
  | search | verify | locked
  deriving DecidableEq, Repr

/-- The trunk receiver: lock machine, held values, counters and latch (R3 to R6, R17). -/
structure Receiver where
  lock       : LockState
  /-- Consecutive verified syncs; VERIFY only. -/
  verifyRun  : Nat
  /-- Consecutive missed syncs; LOCKED only, 0 or 1. -/
  missRun    : Nat
  /-- The byte before the next one examined in SEARCH, when there is one. -/
  prevByte   : Option Byte
  held       : Vector Sample 16
  syncMiss   : Nat
  checkFail  : Nat
  lockLoss   : Nat
  syncSlip   : Bool
  deriving DecidableEq, Repr

/-! ### Lane parser (section 1.4) -/

/-- A packet in BODY: its header, the address decision of R12, the payload so far, the running
sums of R11 and the first check byte once it has come. -/
structure LaneBody where
  kind     : Byte
  dest     : Byte
  src      : Byte
  len      : Nat
  /-- The packet was taken (Consume, or Take and pass) and nothing has since broken its copy. -/
  take     : Bool
  /-- The decision was Consume. -/
  consumed : Bool
  /-- The packet is cut through and its bytes still enter the pass-through FIFO. -/
  pushing  : Bool
  payload  : List Byte
  sumA     : Nat
  sumB     : Nat
  checkA   : Option Byte
  deriving DecidableEq, Repr

/-- The assembly states of R11. -/
inductive LaneState where
  | idle
  | header (bytes : List Byte)
  | body (b : LaneBody)
  deriving DecidableEq, Repr

/-- The lane parser: assembly, addresses, strap value and counters (R11 to R14, R17). -/
structure Lane where
  assembly    : LaneState
  unitAddr    : Byte
  groupAddr   : Byte
  straps      : Byte
  stray       : Nat
  headerError : Nat
  badCheck    : Nat
  misdirected : Nat
  unknownKind : Nat
  broken      : Nat
  deriving DecidableEq, Repr

/-! ### Egress transmitter (sections 1.3 and 1.5) -/

/-- The timing modes of section 1.3. -/
inductive EgressMode where
  | follow | holdover
  deriving DecidableEq, Repr

/-- An ingress frame delivered and not yet sent: its carrying AC (section 2.5), the sixteen slot
words it carries (the held values when it failed, R6) and whether it was good. -/
structure TransitFrame where
  carrying : AC
  slots    : Vector Sample 16
  good     : Bool
  deriving DecidableEq, Repr

/-- One place of the pass-through FIFO: a byte, or a broken mark with the bytes still missing. -/
inductive FifoItem where
  | byte (b : Byte)
  | mark (missing : Nat)
  deriving DecidableEq, Repr

/-- The egress merger's send state (R16).  `sendPass` keeps how many bytes of the packet are out,
its LEN once that byte is out, and the check sums over the bytes as sent. -/
inductive Merger where
  | between
  | sendLocal (rest : List Byte)
  | sendPass (sent len sumA sumB : Nat)
  deriving DecidableEq, Repr

/-- The egress transmitter: timing mode, holdover period, transit, FIFO, merger, the frame last
put on the trunk out, and its counters (R2, R7 to R10, R15 to R17). -/
structure Egress where
  mode          : EgressMode
  /-- The first HOLDOVER frame is still to be sent (R8 after a loss of lock, R18 after reset). -/
  awaitFirst    : Bool
  /-- The holdover period setting, 508..516. -/
  holdover      : Nat
  /-- The count loaded into the period counter at its last reload. -/
  periodCounter : Nat
  transit       : List TransitFrame
  /-- Carrying AC of the last frame delivered, when there is one (R29). -/
  lastCarrying  : Option AC
  fifo          : List FifoItem
  merger        : Merger
  timingSlip    : Nat
  fifoOverflow  : Nat
  /-- The last egress frame sent, as it stands on the trunk out. -/
  sent          : Option TrunkFrame
  deriving DecidableEq, Repr

/-! ### Air clock (sections 5.1, R99) -/

/-- The time-mark capture of R99. -/
structure TimeMarkCapture where
  valid   : Bool
  ac      : AC
  seconds : Nat
  frame   : Nat
  deriving DecidableEq, Repr

/-- The air clock: the AC of the last egress frame formed, whether none has been formed since
power-on (the first carries AC 0, R87), and the time-mark capture. -/
structure AirClock where
  ac         : AC
  noneFormed : Bool
  mark       : TimeMarkCapture
  deriving DecidableEq, Repr

/-! ### Cue decoder (R100) -/

/-- The cue counters of R100. -/
structure CueCounters where
  cue             : Nat
  unknown         : Nat
  malformed       : Nat
  unmatched       : Nat
  refused         : Nat
  recordBusy      : Nat
  recordUnmatched : Nat
  deriving DecidableEq, Repr

/-! ### Clip store (chapter 2) -/

inductive EntryState where
  | empty | armed | filling | ready
  deriving DecidableEq, Repr

inductive Region where
  | library | ring
  deriving DecidableEq, Repr

inductive Layout where
  | mono | stereo
  deriving DecidableEq, Repr

inductive RateClass where
  | r32000 | r44100 | r48000
  deriving DecidableEq, Repr

/-- A directory entry (section 2.3). -/
structure DirEntry where
  state     : EntryState
  region    : Region
  firstPage : Nat
  length    : Nat
  layout    : Layout
  rate      : RateClass
  trim      : Int
  loop      : Option (Nat × Nat)
  spotKey   : BitVec 32
  label     : Vector Byte 16
  damage    : Nat
  hold      : Nat
  deriving DecidableEq, Repr

/-- The entry with every field at its empty value (R22). -/
def DirEntry.blank : DirEntry where
  state := .empty
  region := .library
  firstPage := 0
  length := 0
  layout := .mono
  rate := .r48000
  trim := 0
  loop := none
  spotKey := 0
  label := Vector.replicate 16 0
  damage := 0
  hold := 0

/-- What an ARMED or FILLING entry keeps of its INGEST_ARM beside the directory fields (section
2.4): source slots, width and length limit. -/
structure Arm where
  clip      : Nat
  firstSlot : Nat
  width     : Nat
  limit     : Nat
  deriving DecidableEq, Repr

/-- The ingest outcomes of R201. -/
inductive IngestOutcome where
  | none | limit | cueStop | commandStop | regionEnd | emptyClip | noRoom | linkLost
  deriving DecidableEq, Repr

/-- A frame the ingest captured: its carrying AC and whether it had failed (R29 cuts these back). -/
structure Captured where
  carrying : AC
  failed   : Bool
  deriving DecidableEq, Repr

/-- The busy ingest engine (section 2.5). -/
structure Ingest where
  arm      : Arm
  words    : Nat
  failed   : Nat
  /-- Start moment and reference frame of the starting cue; absent for a NOW start (R26). -/
  start    : Option (AC × AC)
  stop     : Option AC
  /-- Captured frames, newest first. -/
  captured : List Captured
  /-- The end a captured frame has reached (R29, R31), taken by the INGEST_LIMIT,
  INGEST_REGION_END or INGEST_CUE_STOP step. -/
  ending   : Option IngestOutcome
  deriving DecidableEq, Repr

/-- The last ingest report (R32). -/
structure IngestReport where
  clip    : Nat
  outcome : IngestOutcome
  length  : Nat
  deriving DecidableEq, Repr

/-- The clip store without clip memory (chapter 2).  The directory lists the entries that are not
at their empty value, by rising clip number. -/
structure Store where
  lp           : Nat
  directory    : List (Nat × DirEntry)
  ringList     : List Nat
  currentPage  : Nat
  boundaryPage : Nat
  armList      : List Arm
  engine       : Option Ingest
  lastReport   : IngestReport
  deriving DecidableEq, Repr

/-! ### Voice engine (chapter 3) -/

inductive VoiceState where
  | free | reserved | primed | playing
  deriving DecidableEq, Repr

inductive Purpose where
  | brk | cart | emergency
  deriving DecidableEq, Repr

/-- The owner of a voice: a channel and a purpose. -/
structure Owner where
  channel : Fin 4
  purpose : Purpose
  deriving DecidableEq, Repr

/-- A voice's ramp: target, rate, interval and whether the end action is STOP (section 3.1). -/
structure Ramp where
  target   : Nat
  rate     : Nat
  interval : Nat
  stop     : Bool
  deriving DecidableEq, Repr

/-- A staged update: target and rate (R59). -/
structure Staged where
  target : Nat
  rate   : Nat
  deriving DecidableEq, Repr

/-- A voice record (section 3.1). -/
structure Voice where
  state      : VoiceState
  owner      : Option Owner
  clip       : Option Nat
  index      : Nat
  fraction   : Nat
  step       : Nat
  loop       : Option (Nat × Nat)
  startFrame : Option AC
  startAC    : Option AC
  code       : Nat
  ramp       : Option Ramp
  staged     : Option Staged
  deriving DecidableEq, Repr

/-- A FREE voice: every field but the state cleared (R45). -/
def Voice.freed : Voice where
  state := .free
  owner := none
  clip := none
  index := 0
  fraction := 0
  step := 0
  loop := none
  startFrame := none
  startAC := none
  code := 0
  ramp := none
  staged := none

inductive EventKind where
  | started | ended | faded
  deriving DecidableEq, Repr

/-- An event of the voice event queue (section 3.6): kind, voice, the AC it was raised with, and
the sum of the CLOCK_SET deltas its owner adds when it takes it (R92). -/
structure VoiceEvent where
  kind  : EventKind
  voice : Fin 16
  ac    : AC
  shift : AC
  deriving DecidableEq, Repr

/-! ### As-run records (chapter 10) -/

inductive AsRunKind where
  | item | fill | cart | emergency
  deriving DecidableEq, Repr

inductive AirOutcome where
  | full | cut | dropped | notAired
  deriving DecidableEq, Repr

inductive Cause where
  | none | fit | time | close | abort | reset | noVoice | missed
  deriving DecidableEq, Repr

/-- Actual start AC, actual end AC and frames aired of an aired record (R168). -/
structure Aired where
  startAC : AC
  endAC   : AC
  frames  : Nat
  deriving DecidableEq, Repr

/-- An as-run record (R168); absent fields are `none`. -/
structure AsRunRecord where
  channel  : Fin 4
  kind     : AsRunKind
  breakNo  : Option Nat
  itemNo   : Option Nat
  clip     : Nat
  spotKey  : BitVec 32
  outcome  : AirOutcome
  cause    : Cause
  late     : Bool
  planned  : Option AC
  aired    : Option Aired
  squeeze  : Option Nat
  deriving DecidableEq, Repr

/-- The as-run queue (section 10.2), oldest record first, with the lost count. -/
structure AsRunQueue where
  records : List AsRunRecord
  lost    : Nat
  deriving DecidableEq, Repr

/-! ### Break records, plans and run records (chapters 6 to 8) -/

inductive Trigger where
  | cue (key : Nat)
  | time (target : AC)
  | manual
  deriving DecidableEq, Repr

inductive ItemClass where
  | must | drop
  deriving DecidableEq, Repr

/-- A fade of an item: rate and interval (section 6.1). -/
structure ItemFade where
  rate     : Nat
  interval : Nat
  deriving DecidableEq, Repr

/-- An item record (section 6.1). -/
structure Item where
  clip    : Nat
  cls     : ItemClass
  stretch : Bool
  level   : Nat
  overlap : Nat
  fadeIn  : Option ItemFade
  fadeOut : Option ItemFade
  deriving DecidableEq, Repr

inductive RecState where
  | loading | pending | preroll | onAir | joining
  deriving DecidableEq, Repr

inductive Disposition where
  | placed
  | dropped (cause : Cause)
  deriving DecidableEq, Repr

/-- One item of a plan (R118), with the clip's length and rate class's base step that the planner
reads, and the squeeze factor its as-run record carries (R132). -/
structure PlanItem where
  number  : Nat
  cls     : ItemClass
  stretch : Bool
  loaded  : Nat
  length  : Nat
  base    : Nat
  step    : Nat
  dur     : Nat
  overlap : Nat
  start   : Nat
  disp    : Disposition
  squeeze : Option Nat
  deriving DecidableEq, Repr

/-- A plan (R118).  `window` is W, `joinLen` Jf, `factor` f, `itemsEnd` P and `ret` X. -/
structure Plan where
  hard      : Bool
  window    : Nat
  joinLen   : Nat
  late      : Bool
  items     : List PlanItem
  factor    : Nat
  itemsEnd  : Nat
  fillStart : Option AC
  ret       : AC
  voices    : Option (Fin 16 × Fin 16)
  deriving DecidableEq, Repr

inductive RunState where
  | waiting | primed | sounding | finished | notStarted
  deriving DecidableEq, Repr

inductive FadeInForce where
  | none | own | join
  deriving DecidableEq, Repr

/-- What a part of a run record is: placed item k, which is item `number` of the record, or the
fill. -/
inductive PartKind where
  | item (k number : Nat)
  | fill
  deriving DecidableEq, Repr

/-- A part of a run record (R133), with the voice the plan gives it (R130). -/
structure Part where
  kind    : PartKind
  voice   : Fin 16
  state   : RunState
  fade    : FadeInForce
  startAC : Option AC
  endAC   : Option AC
  finish  : Option EventKind
  deriving DecidableEq, Repr

/-- The run record of the break in flight (R133): a part per placed item in item order, then the
fill's part, and the return cause. -/
structure Run where
  parts : List Part
  cause : Cause
  deriving DecidableEq, Repr

/-- A break record (section 6.1).  Its queue place is its place in the channel's list. -/
structure BreakRecord where
  number   : Nat
  trigger  : Trigger
  window   : Nat
  netLevel : Nat
  fillClip : Option Nat
  expiry   : Option AC
  items    : List Item
  state    : RecState
  start    : Option AC
  deadline : Option AC
  plan     : Option Plan
  run      : Option Run
  deriving DecidableEq, Repr

/-! ### Program channels (chapters 4 and 9) -/

/-- A channel's configuration record (R64). -/
structure ChannelConfig where
  enable        : Bool
  slotL         : Nat
  slotR         : Nat
  openFade      : Nat
  joinFade      : Nat
  fillClip      : Option Nat
  fillLevel     : Nat
  fillThreshold : Nat
  emClip        : Option Nat
  emLevel       : Nat
  autoFill      : Bool
  silThreshold  : Nat
  silLimit      : Nat
  recLimit      : Nat
  duckDepth     : Nat
  duckRate      : Nat
  lateGrace     : Nat
  deriving DecidableEq, Repr

inductive ChannelState where
  | halted | network | preroll | onBreak | joining | emergency
  deriving DecidableEq, Repr

inductive PrerollOrigin where
  | network | emergency
  deriving DecidableEq, Repr

/-- A cart record (section 4.6): voice, clip, spot key, target code and, once started, start AC. -/
structure CartRecord where
  voice   : Fin 16
  clip    : Nat
  spotKey : BitVec 32
  target  : Nat
  startAC : Option AC
  deriving DecidableEq, Repr

inductive EmPhase where
  | none | covering | recovering | yielding
  deriving DecidableEq, Repr

/-- The emergency record (section 9.1). -/
structure EmRecord where
  voice   : Fin 16
  clip    : Nat
  spotKey : BitVec 32
  startAC : Option AC
  deriving DecidableEq, Repr

/-- The running peaks over the frames the mixer has formed since the last judgment, and the AC of
the first of those frames (R153, R158). -/
structure Peaks where
  egress  : Nat
  ingress : Nat
  first   : AC
  deriving DecidableEq, Repr

/-- A silence monitor (section 9.1). -/
structure Monitor where
  silentCount   : Nat
  silence       : Bool
  /-- A judged block found the count at or above the limit with the level inactive; the
  SILENCE_LIMIT_REACHED step is due. -/
  limitReached  : Bool
  recoveryCount : Nat
  phase         : EmPhase
  emRecord      : Option EmRecord
  refusals      : Nat
  peaks         : Option Peaks
  deriving DecidableEq, Repr

/-- A program channel: configuration, mixer state, network path gain, duck, cart logic, break
queue and silence monitor. -/
structure Channel where
  config       : ChannelConfig
  state        : ChannelState
  origin       : Option PrerollOrigin
  returning    : Bool
  breakClear   : Bool
  emClear      : Bool
  gain         : Nat
  gainTarget   : Nat
  gainRate     : Nat
  duck         : Nat
  saturation   : Nat
  carts        : List CartRecord
  cartRefusals : Nat
  queue        : List BreakRecord
  fireRefusals : Nat
  monitor      : Monitor
  deriving DecidableEq, Repr

/-! ### Contact unit (sections 9.3 and 9.4) -/

inductive GpiFunction where
  | none
  | micLive (c : Fin 4)
  | brk (c : Fin 4)
  | abort (c : Fin 4)
  | emergency (c : Fin 4)
  | cart (c : Fin 4) (clip level : Nat)
  deriving DecidableEq, Repr

/-- A GPI line: stable level, change run and function. -/
structure GpiLine where
  stable : Bool
  run    : Nat
  fn     : GpiFunction
  deriving DecidableEq, Repr

inductive GpoFunction where
  | none
  | onAir (c : Fin 4)
  | silence (c : Fin 4)
  | alertPending
  | locked
  deriving DecidableEq, Repr

/-! ### Command unit (sections 11.1 and 11.2) -/

/-- The 8-byte command header (R177, R196). -/
structure CmdHeader where
  code     : Nat
  ack      : Bool
  peek     : Bool
  tag      : Nat
  maxReply : Nat
  total    : Nat
  deriving DecidableEq, Repr

/-- A complete command in the command queue (R181). -/
structure Command where
  src    : Byte
  header : CmdHeader
  body   : List Byte
  deriving DecidableEq, Repr

/-- An open assembly (R178). -/
structure Assembly where
  owner    : Byte
  header   : CmdHeader
  body     : List Byte
  deadline : AC
  deriving DecidableEq, Repr

/-- A packet the part sends: KIND, DEST, SRC and payload. -/
structure Packet where
  kind    : Byte
  dest    : Byte
  src     : Byte
  payload : List Byte
  deriving DecidableEq, Repr

/-- The blocks a checked packet is routed to (R13). -/
inductive Route where
  | cue | command | commandMore
  deriving DecidableEq, Repr

/-- A packet routed by the lane parser and not yet taken by the block it is for (R13). -/
structure Routed where
  route   : Route
  dest    : Byte
  src     : Byte
  payload : List Byte
  ref     : AC
  deriving DecidableEq, Repr

/-- The command unit. -/
structure CommandUnit where
  inbox       : List Routed
  assembly    : Option Assembly
  queue       : List Command
  build       : List Packet
  replies     : List Packet
  reportDrops : Nat
  /-- The MODEL's own: free values drawn so far, the number of the next draw (log entries 46 and 48). -/
  draws       : Nat
  deriving DecidableEq, Repr

/-! ### Alert unit (section 11.4) -/

/-- A ready ALERT: the packet's addresses and payload fields (R191). -/
structure ReadyAlert where
  dest      : Byte
  src       : Byte
  number    : Nat
  changed   : BitVec 32
  snapshot  : BitVec 32
  lockCount : Nat
  ac        : AC
  deriving DecidableEq, Repr

/-- The alert unit. -/
structure AlertUnit where
  mask      : BitVec 32
  dest      : Byte
  pending   : Bool
  changed   : BitVec 32
  lockCount : Nat
  number    : Nat
  ready     : Option ReadyAlert
  deriving DecidableEq, Repr

/-! ### The egress frame in formation -/

/-- A voice's output in the frame in formation: the sample pair and code handed to the mixer of
its owner channel (R50). -/
structure VoiceOut where
  voice   : Fin 16
  channel : Fin 4
  left    : Int
  right   : Int
  code    : Nat
  deriving DecidableEq, Repr

/-- What has been done of the next egress frame before it is formed (MODEL's own state: it lets
the steps of one frame be taken one after another).  `opened` is set by the first of them,
`cursor` is the first voice not yet handled, `sampled` says the contact lines were sampled,
`timeJudged` which channels' TIME records were judged. -/
structure Forming where
  opened     : Bool
  cursor     : Nat
  outputs    : List VoiceOut
  sampled    : Bool
  timeJudged : List (Fin 4)
  deriving DecidableEq, Repr

/-- No work of the next frame done yet. -/
def Forming.start : Forming where
  opened := false
  cursor := 0
  outputs := []
  sampled := false
  timeJudged := []

/-! ### The machine -/

/-- The state of the RA-416. -/
structure State where
  rx      : Receiver
  lane    : Lane
  tx      : Egress
  clock   : AirClock
  cues    : CueCounters
  /-- Clip memory (section 2.1): word addresses strictly rising, no word equal to what an unlisted
  address reads as. -/
  memory  : List (Nat × Sample)
  store   : Store
  voices  : Vector Voice 16
  /-- The voice event queue, oldest first. -/
  events  : List VoiceEvent
  /-- The reserve K. -/
  reserve : Nat
  chans   : Vector Channel 4
  gpi     : Vector GpiLine 8
  gpo     : Vector GpoFunction 4
  asrun   : AsRunQueue
  cmd     : CommandUnit
  alert   : AlertUnit
  forming : Forming
  /-- The commands waiting, first in first out (the model's interface). -/
  pending : List Instr
  deriving DecidableEq, Repr

/-- A channel's configuration after power-on (R64); channel c has slots 2c and 2c + 1. -/
def ChannelConfig.powerOn (c : Nat) : ChannelConfig where
  enable := false
  slotL := 2 * c
  slotR := 2 * c + 1
  openFade := 75
  joinFade := 75
  fillClip := none
  fillLevel := 3840
  fillThreshold := 24000
  emClip := none
  emLevel := 3840
  autoFill := false
  silThreshold := 8389
  silLimit := 15000
  recLimit := 1500
  duckDepth := 0
  duckRate := 32
  lateGrace := 96000

/-- A silence monitor after a reset (R167). -/
def Monitor.powerOn : Monitor where
  silentCount := 0
  silence := false
  limitReached := false
  recoveryCount := 0
  phase := .none
  emRecord := none
  refusals := 0
  peaks := none

/-- A channel after power-on (R86). -/
def Channel.powerOn (c : Nat) : Channel where
  config := .powerOn c
  state := .halted
  origin := none
  returning := false
  breakClear := false
  emClear := false
  gain := 3840
  gainTarget := 3840
  gainRate := 1
  duck := 0
  saturation := 0
  carts := []
  cartRefusals := 0
  queue := []
  fireRefusals := 0
  monitor := .powerOn

/-- The cue counters at 0. -/
def CueCounters.zero : CueCounters := ⟨0, 0, 0, 0, 0, 0, 0⟩

/-- The last ingest report's initial value (R38). -/
def IngestReport.initial : IngestReport := ⟨0, .none, 0⟩

/-- The clip store after power-on (R39). -/
def Store.powerOn : Store where
  lp := 1024
  directory := []
  ringList := []
  currentPage := 1024
  boundaryPage := 1024
  armList := []
  engine := none
  lastReport := .initial

/-- The part after power-on with the address straps at 0 (a DESIGN CHOICE: the strap pins are an
input, and POWER_ON_RESET carries their value), before its first egress frame. -/
def State.reset : State where
  rx := { lock := .search, verifyRun := 0, missRun := 0, prevByte := none,
          held := Vector.replicate 16 0, syncMiss := 0, checkFail := 0, lockLoss := 0,
          syncSlip := false }
  lane := { assembly := .idle, unitAddr := 0, groupAddr := 0, straps := 0, stray := 0,
            headerError := 0, badCheck := 0, misdirected := 0, unknownKind := 0, broken := 0 }
  tx := { mode := .holdover, awaitFirst := true, holdover := 512, periodCounter := 512,
          transit := [], lastCarrying := none, fifo := [], merger := .between, timingSlip := 0,
          fifoOverflow := 0, sent := none }
  clock := { ac := 0, noneFormed := true, mark := ⟨false, 0, 0, 0⟩ }
  cues := .zero
  memory := []
  store := .powerOn
  voices := Vector.replicate 16 .freed
  events := []
  reserve := 2
  chans := #v[.powerOn 0, .powerOn 1, .powerOn 2, .powerOn 3]
  gpi := Vector.replicate 8 ⟨false, 0, .none⟩
  gpo := Vector.replicate 4 .none
  asrun := ⟨[], 0⟩
  cmd := { inbox := [], assembly := none, queue := [], build := [], replies := [],
           reportDrops := 0, draws := 0 }
  alert := { mask := 0, dest := 0, pending := false, changed := 0, lockCount := 0, number := 0,
             ready := none }
  forming := .start
  pending := []

end Sys2Proof.Machine
end

