-- ==== Sys2Proof/Machine/Ops.lean ====
section
/-! DEFINITION. The operations shared by every block: the setters of State, sparse maps in
canonical form and clip memory over them, air clock comparison (R89), block boundaries (R88),
saturating counters, byte order (R195) and gain arithmetic (Conventions, Gain codes and Fades). -/

namespace Sys2Proof.Machine

/-! ### One setter per field of State -/

def State.setRx (s : State) (x : Receiver) : State := { s with rx := x }
def State.setLane (s : State) (x : Lane) : State := { s with lane := x }
def State.setTx (s : State) (x : Egress) : State := { s with tx := x }
def State.setClock (s : State) (x : AirClock) : State := { s with clock := x }
def State.setCues (s : State) (x : CueCounters) : State := { s with cues := x }
def State.setMemory (s : State) (x : List (Nat × Sample)) : State := { s with memory := x }
def State.setStore (s : State) (x : Store) : State := { s with store := x }
def State.setVoices (s : State) (x : Vector Voice 16) : State := { s with voices := x }
def State.setEvents (s : State) (x : List VoiceEvent) : State := { s with events := x }
def State.setReserve (s : State) (x : Nat) : State := { s with reserve := x }
def State.setChans (s : State) (x : Vector Channel 4) : State := { s with chans := x }
def State.setGpi (s : State) (x : Vector GpiLine 8) : State := { s with gpi := x }
def State.setGpo (s : State) (x : Vector GpoFunction 4) : State := { s with gpo := x }
def State.setAsrun (s : State) (x : AsRunQueue) : State := { s with asrun := x }
def State.setCmd (s : State) (x : CommandUnit) : State := { s with cmd := x }
def State.setAlert (s : State) (x : AlertUnit) : State := { s with alert := x }
def State.setForming (s : State) (x : Forming) : State := { s with forming := x }
def State.setPending (s : State) (x : List Instr) : State := { s with pending := x }

/-- Channel c. -/
def State.ch (s : State) (c : Fin 4) : Channel := s.chans[c.val]
/-- Channel c replaced. -/
def State.setCh (s : State) (c : Fin 4) (x : Channel) : State :=
  s.setChans (s.chans.set c.val x)
/-- Voice v. -/
def State.voice (s : State) (v : Fin 16) : Voice := s.voices[v.val]
/-- Voice v replaced. -/
def State.setVoice (s : State) (v : Fin 16) (x : Voice) : State :=
  s.setVoices (s.voices.set v.val x)
/-- GPI line g. -/
def State.gpiLine (s : State) (g : Fin 8) : GpiLine := s.gpi[g.val]
/-- GPI line g replaced. -/
def State.setGpiLine (s : State) (g : Fin 8) (x : GpiLine) : State :=
  s.setGpi (s.gpi.set g.val x)

/-- The channels in ascending number. -/
abbrev allChannels : List (Fin 4) := [0, 1, 2, 3]
/-- The voices in ascending number. -/
abbrev allVoices : List (Fin 16) := [0, 1, 2, 3, 4, 5, 6, 7, 8, 9, 10, 11, 12, 13, 14, 15]
/-- The GPI lines in ascending number. -/
abbrev allGpi : List (Fin 8) := [0, 1, 2, 3, 4, 5, 6, 7]
/-- The GPO lines in ascending number. -/
abbrev allGpo : List (Fin 4) := [0, 1, 2, 3]

/-- The channel a number names, if there is one. -/
def channelOf (n : Nat) : Option (Fin 4) := if h : n < 4 then some ⟨n, h⟩ else none
/-- The voice a number names, if there is one. -/
def voiceOf (n : Nat) : Option (Fin 16) := if h : n < 16 then some ⟨n, h⟩ else none

/-- A free value has been drawn (log entries 46 and 48). -/
def drawFree (s : State) : State := s.setCmd { s.cmd with draws := s.cmd.draws + 1 }

/-- Apply an operation for every channel, in ascending order. -/
def forChannels (f : Fin 4 → State → State) (s : State) : State :=
  allChannels.foldl (fun t c => f c t) s

/-! ### Sparse maps in canonical form -/

/-- The value at a key; `d` where the list has none. -/
def lookupD {α : Type} (d : α) : List (Nat × α) → Nat → α
  | [], _ => d
  | (k, x) :: l, n => if k = n then x else lookupD d l n

/-- The value at a key replaced; the default value removes the entry. -/
def storeD {α : Type} [DecidableEq α] (d : α) : List (Nat × α) → Nat → α → List (Nat × α)
  | [], n, v => if v = d then [] else [(n, v)]
  | (k, x) :: l, n, v =>
    if n < k then (if v = d then (k, x) :: l else (n, v) :: (k, x) :: l)
    else if n = k then (if v = d then l else (n, v) :: l)
    else (k, x) :: storeD d l n v

/-- Keys strictly rising, and no entry at the default value. -/
abbrev Canonical {α : Type} (d : α) (l : List (Nat × α)) : Prop :=
  l.Pairwise (fun a b => a.1 < b.1) ∧ ∀ p ∈ l, p.2 ≠ d

/-! ### Clip memory (section 2.1) -/

/-- What a clip memory word that nothing has written reads as.  DESIGN CHOICE: 0.  No reachable
state reads one (R39). -/
abbrev unwrittenWord : Sample := 0

/-- The canonical form of clip memory: rising addresses below 2^28, no unwritten word listed. -/
abbrev Memory.wf (m : List (Nat × Sample)) : Prop :=
  Canonical unwrittenWord m ∧ ∀ p ∈ m, p.1 < 2 ^ 28

/-- Read a word.  An address is 28 bits, so every address exists (section 2.1: 2^28 words). -/
def State.readWord (s : State) (a : BitVec 28) : Sample := lookupD unwrittenWord s.memory a.toNat

/-- Write a word. -/
def State.writeWord (s : State) (a : BitVec 28) (w : Sample) : State :=
  s.setMemory (storeD unwrittenWord s.memory a.toNat w)

/-! ### The directory's entries (section 2.3) -/

/-- Directory entry n. -/
def State.entry (s : State) (n : Nat) : DirEntry := lookupD DirEntry.blank s.store.directory n

/-- Directory entry n replaced. -/
def State.setEntry (s : State) (n : Nat) (e : DirEntry) : State :=
  s.setStore { s.store with directory := storeD DirEntry.blank s.store.directory n e }

/-! ### The air clock (Conventions, Time; R87 to R89) -/

/-- A is before B: (B − A) mod 2^32 lies in 1..2^31 − 1. -/
def acBefore (a b : AC) : Bool :=
  decide (1 ≤ (b - a).toNat) && decide ((b - a).toNat ≤ Config.acReach)
/-- A is at or before B. -/
def acAtOrBefore (a b : AC) : Bool := a == b || acBefore a b
/-- A is at or after B. -/
def acAtOrAfter (a b : AC) : Bool := a == b || acBefore b a
/-- The AC of the egress frame formed next (R87): the first after power-on carries 0. -/
def State.nextAC (s : State) : AC := if s.clock.noneFormed then 0 else s.clock.ac + 1
/-- The frame with this AC is a boundary frame (R88). -/
def isBoundary (a : AC) : Bool := a.toNat % 32 == 0
/-- The block number of an AC (R88). -/
def blockNumber (a : AC) : Nat := a.toNat / 32
/-- The last frame of a block, 32b + 31 (R88, R153). -/
def isBlockEnd (a : AC) : Bool := a.toNat % 32 == 31
/-- The first block boundary after an AC (R81, R156). -/
def nextBoundary (a : AC) : AC := a + BitVec.ofNat 32 (32 - a.toNat % 32)

/-! ### Counters and arithmetic -/

/-- A counter increased by 1, saturating at 65,535. -/
def bump (n : Nat) : Nat := min (n + 1) Config.counterLimit
/-- A counter increased by k, saturating at 65,535. -/
def bumpBy (n k : Nat) : Nat := min (n + k) Config.counterLimit
/-- ceil(a / b) for b above 0. -/
def ceilDiv (a b : Nat) : Nat := (a + b - 1) / b
/-- clamp(x, lo, hi). -/
def clampNat (lo hi x : Nat) : Nat := min (max x lo) hi
/-- A value moved toward a target by a rate, without passing it (R55, R74, R75). -/
def moveToward (cur target rate : Nat) : Nat :=
  if cur < target then min (cur + rate) target else max (cur - rate) target
/-- A fade length as used: 0, or 17..1023 (R57, R58, R74). -/
def fadeBlocks (j : Nat) : Nat := if j = 0 then 0 else clampNat 17 1023 j
/-- The rate of a timed fade over j blocks, j not 0: ceil(distance / j), at least 1. -/
def fadeRate (distance j : Nat) : Nat := max 1 (ceilDiv distance (fadeBlocks j))
/-- |a − b|. -/
def distance (a b : Nat) : Nat := max a b - min a b
/-- The multiplier numerator M of a gain code (Conventions, Gain codes). -/
def multiplier (g : Nat) : Nat := if g = 0 then 0 else (256 + g % 256) * 2 ^ (g / 256)
/-- clamp(level + trim, 0, 4095) (R54). -/
def targetCode (level : Nat) (trim : Int) : Nat :=
  (max 0 (min (Config.maxCode : Int) ((level : Int) + trim))).toNat
/-- The base step of a rate class (Conventions, Steps and squeeze). -/
def baseStep : RateClass → Nat
  | .r32000 => 43691
  | .r44100 => 60211
  | .r48000 => 65536

/-! ### Byte order (R195) -/

/-- A field of bytes, most significant first. -/
def beNat (l : List Byte) : Nat := l.foldl (fun n b => n * 256 + b.toNat) 0
/-- The n bytes at an offset of a payload or body, as a number; a byte that is not there is not
counted, so bodies are checked for length first. -/
def field (l : List Byte) (off n : Nat) : Nat := beNat ((l.drop off).take n)
/-- The byte at an offset, 0 where the list is shorter. -/
def byteAt (l : List Byte) (off : Nat) : Nat := (l.getD off 0).toNat
/-- A number as k bytes, most significant first. -/
def toBytes (n : Nat) : Nat → List Byte
  | 0 => []
  | k + 1 => BitVec.ofNat 8 (n / 256 ^ k) :: toBytes n k
/-- A flag as a byte. -/
def flagByte (b : Bool) : Byte := if b then 1 else 0
/-- The three bytes of a slot word, most significant first (section 1.1). -/
def sampleBytes (x : Sample) : List Byte := toBytes x.toNat 3
/-- A two's complement number of k bytes as a field carries it. -/
def toBytesInt (x : Int) (k : Nat) : List Byte := toBytes (x % (256 ^ k : Nat)).toNat k

end Sys2Proof.Machine
end

