-- ==== Sys2Proof/Machine/Planner.lean ====
section
/-! DEFINITION. The planner (chapter 7): steps 1 to 7 of R119 on plan items, in plan frames counted
from S. -/

namespace Sys2Proof.Machine

/-- The item is PLACED. -/
def PlanItem.isPlaced (p : PlanItem) : Bool := p.disp == .placed

/-- Step 1 on one item: the duration at its step (R120). -/
def PlanItem.withDuration (p : PlanItem) : PlanItem :=
  if p.isPlaced then { p with dur := ceilDiv (p.length * 65536) p.step } else p

/-- Step 1 (R120). -/
def planDurations (l : List PlanItem) : List PlanItem := l.map PlanItem.withDuration

/-- Steps 2 and 3, after a placed predecessor's start, duration and clamped overlap (R121, R122).
The clamp max(0, min(…)) is the truncated subtraction of Nat. -/
def planStarts : Option (Nat × Nat × Nat) → List PlanItem → List PlanItem
  | _, [] => []
  | prev, p :: l =>
    if p.isPlaced then
      match prev with
      | none => { p with overlap := 0, start := 0 } :: planStarts (some (0, p.dur, 0)) l
      | some (t, n, o) =>
        let o' := min p.loaded (min (n - o - 32) (p.dur - 32))
        let t' := t + n - o'
        { p with overlap := o', start := t' } :: planStarts (some (t', p.dur, o')) l
    else p :: planStarts prev l

/-- P: the end of the last placed item, 0 when none is placed (R122). -/
def planEnd (l : List PlanItem) : Nat :=
  (l.filter PlanItem.isPlaced).getLast?.elim 0 fun p => p.start + p.dur

/-- The item is a PLACED DROP item. -/
def PlanItem.droppable (p : PlanItem) : Bool := p.isPlaced && p.cls == .drop

/-- The PLACED DROP item with the highest item number becomes DROPPED with cause FIT (R123). -/
def dropLast (l : List PlanItem) : List PlanItem :=
  match (l.filter PlanItem.droppable).getLast? with
  | none => l
  | some d => l.map fun p => if p.number = d.number then { p with disp := .dropped .fit } else p

/-- Step 4: drop while P > W and a DROP item is PLACED (R123).  The fuel is the number of items. -/
def planDrops (w : Nat) : Nat → List PlanItem → List PlanItem
  | 0, l => l
  | fuel + 1, l =>
    if planEnd l > w ∧ l.any PlanItem.droppable = true then
      planDrops w fuel (planStarts none (dropLast l))
    else l

/-- The item is PLACED and its stretch is allowed. -/
def PlanItem.stretchable (p : PlanItem) : Bool := p.isPlaced && p.stretch

/-- The stretchable length Sst (R124). -/
def stretchLength (l : List PlanItem) : Nat :=
  ((l.filter PlanItem.stretchable).map fun p => p.dur).sum

/-- The squeeze factor for an excess and a stretchable length (R124). -/
def squeezeFactor (excess sst : Nat) : Nat :=
  if sst = 0 then Config.unitFactor
  else if excess ≥ sst then Config.maxFactor
  else min Config.maxFactor (ceilDiv (65536 * sst) (sst - excess))

/-- The squeezed step of a stretch item, with the factor its record carries (R125, R132). -/
def PlanItem.squeezed (f : Nat) (p : PlanItem) : PlanItem :=
  if p.stretchable then
    { p with step := p.base * f / 65536,
             squeeze := if f > Config.unitFactor then some f else none }
  else p

/-- Step 5: the factor and the items after it (R124, R125). -/
def planSqueeze (w : Nat) (l : List PlanItem) : Nat × List PlanItem :=
  if planEnd l > w then
    let sst := stretchLength l
    if sst = 0 then (Config.unitFactor, l)
    else
      let f := squeezeFactor (planEnd l - w) sst
      (f, planStarts none (planDurations (l.map (PlanItem.squeezed f))))
  else (Config.unitFactor, l)

/-- PLACED items that satisfy a test become DROPPED with cause TIME (R126, R128). -/
def dropTime (test : PlanItem → Bool) (l : List PlanItem) : List PlanItem :=
  l.map fun p => if p.isPlaced && test p then { p with disp := .dropped .time } else p

/-- The return point and the fill start of step 6 of a hard plan, in plan frames (R127). -/
def hardReturn (w jf p threshold : Nat) (fill : Bool) : Int × Option Nat :=
  let edge : Int := (w : Int) - jf
  if p > w then (edge, none)
  else if w - p ≥ threshold ∧ fill = true ∧ (p : Int) < edge then (edge, some p)
  else (min (p : Int) edge, none)

/-- Step 7: the item starts at or above x − 48,000 (R128). -/
def tooLate (x : Int) (p : PlanItem) : Bool := decide (x - Config.minAiring ≤ (p.start : Int))

/-- What the planner reads of the break and its channel (R119). -/
structure PlanInput where
  start     : AC
  deadline  : Option AC
  late      : Bool
  items     : List PlanItem
  fill      : Bool
  joinFade  : Nat
  threshold : Nat
  deriving DecidableEq, Repr

/-- An AC value from a plan frame: S + x mod 2^32 (R119). -/
def planAC (start : AC) (x : Int) : AC := start + BitVec.ofInt 32 x

/-- Steps 1 to 3 on the items as loaded (R119 to R122). -/
def planLayout (l : List PlanItem) : List PlanItem := planStarts none (planDurations l)

/-- The plan of an open-ended break (R126). -/
def planOpen (q : PlanInput) : Plan :=
  let l := dropTime (fun p => decide (p.start + p.dur > Config.acReach)) (planLayout q.items)
  let p := planEnd l
  { hard := false, window := 0, joinLen := 32 * q.joinFade, late := q.late, items := l,
    factor := Config.unitFactor, itemsEnd := p, fillStart := none, ret := planAC q.start p,
    voices := none }

/-- The plan of a hard break with window as planned w (R123 to R128).  DESIGN CHOICE (log entry 50): the P
the plan keeps is the end of the last item still PLACED after step 7, P″ of R128, and 0 when none is. -/
def planHard (q : PlanInput) (w : Nat) : Plan :=
  let jf := 32 * q.joinFade
  let l := planLayout q.items
  let l := planDrops w l.length l
  let fl := planSqueeze w l
  let p := planEnd fl.2
  let xf := hardReturn w jf p q.threshold q.fill
  let l := dropTime (tooLate xf.1) fl.2
  let p' := planEnd l
  let removed := fl.2.any fun i => i.isPlaced && tooLate xf.1 i
  let x : Int := match xf.2 with
    | none => if l.any PlanItem.isPlaced then min xf.1 (p' : Int) else xf.1
    | some _ => xf.1
  let fillFrame : Option Nat := xf.2.map fun f => if removed then p' else f
  { hard := true, window := w, joinLen := jf, late := q.late, items := l, factor := fl.1,
    itemsEnd := p', fillStart := fillFrame.map fun f => planAC q.start f,
    ret := planAC q.start x, voices := none }

/-- The planner (R119): HARD when the break has a deadline, with W = D − S mod 2^32. -/
def makePlan (q : PlanInput) : Plan :=
  match q.deadline with
  | none => planOpen q
  | some d => planHard q (d - q.start).toNat

/-- No item is PLACED (R129). -/
def Plan.isEmpty (p : Plan) : Bool := !p.items.any PlanItem.isPlaced

/-- The placed items, in item order. -/
def Plan.placed (p : Plan) : List PlanItem := p.items.filter PlanItem.isPlaced

/-- The plan's item with an item number. -/
def Plan.item? (p : Plan) (number : Nat) : Option PlanItem :=
  p.items.find? fun i => i.number == number

/-- The voice of placed item k: the first voice when k is odd, the second when it is even (R130). -/
def alternate (v : Fin 16 × Fin 16) (k : Nat) : Fin 16 := if k % 2 = 1 then v.1 else v.2

/-- The parts of the run record for the placed items from placed number k on (R133). -/
def itemParts (v : Fin 16 × Fin 16) : Nat → List PlanItem → List Part
  | _, [] => []
  | k, p :: l =>
    { kind := .item k p.number, voice := alternate v k, state := .waiting, fade := .none,
      startAC := none, endAC := none, finish := none } :: itemParts v (k + 1) l

/-- The run record at its creation: one part per PLACED item, one for a planned fill on the voice
the last placed item does not use, return cause TIME (R130, R133). -/
def makeRun (p : Plan) (v : Fin 16 × Fin 16) : Run :=
  let m := p.placed.length
  let fill : List Part := if p.fillStart.isSome then
      [{ kind := .fill, voice := alternate v (m + 1), state := .waiting, fade := .none,
         startAC := none, endAC := none, finish := none }]
    else []
  ⟨itemParts v 1 p.placed ++ fill, .time⟩

end Sys2Proof.Machine
end

