-- ==== Sys2Proof/Machine/Flags.lean ====
section
/-! DEFINITION. The flags of the part: the error set and reply status of R183, the alert sources
and their bits (R196), and every level computed from the state (R73, R75, R154, R163, R165, R170,
R191). -/

namespace Sys2Proof.Machine

/-! ### Error flags (R183, R196) -/

/-- The sixteen error flags, in the order of the table of R183. -/
inductive ErrFlag where
  | unknownKind | unknownCommand | badLength | badField | notFound | exists_ | noRoom | state
  | busy | segment | timeout | held | noVoice | link | truncated | clamped
  deriving DecidableEq, Repr

/-- The bit of a flag in the error set: bit 0 is UNKNOWN_KIND, bit 15 CLAMPED. -/
def ErrFlag.bit : ErrFlag → Nat
  | .unknownKind => 0
  | .unknownCommand => 1
  | .badLength => 2
  | .badField => 3
  | .notFound => 4
  | .exists_ => 5
  | .noRoom => 6
  | .state => 7
  | .busy => 8
  | .segment => 9
  | .timeout => 10
  | .held => 11
  | .noVoice => 12
  | .link => 13
  | .truncated => 14
  | .clamped => 15

/-- The error set that carries one flag. -/
def ErrFlag.set (f : ErrFlag) : Nat := 2 ^ f.bit

/-- What executing a command answers (R183): a refusal with the one flag of the failed check, or a
success with the CLAMPED and TRUNCATED flags and the reply data. -/
inductive Reply where
  | refused (f : ErrFlag)
  | done (clamped truncated : Bool) (data : List Byte)
  deriving DecidableEq, Repr

/-- The status byte: 0 OK, 1 OK_CLAMPED, 2 ERROR (R196). -/
def Reply.status : Reply → Nat
  | .refused _ => 2
  | .done true _ _ => 1
  | .done false _ _ => 0

/-- The error set of a reply (R183). -/
def Reply.errorSet : Reply → Nat
  | .refused f => f.set
  | .done clamped truncated _ =>
    (if clamped then ErrFlag.clamped.set else 0) + (if truncated then ErrFlag.truncated.set else 0)

/-- The data of a reply; a refusal carries none. -/
def Reply.data : Reply → List Byte
  | .refused _ => []
  | .done _ _ d => d

/-- Whether a reply is made: every refusal, every success with data, and a success without data
when ACK is set (R183). -/
def Reply.made (ack : Bool) : Reply → Bool
  | .refused _ => true
  | .done _ _ d => ack || !d.isEmpty

/-! ### Alert sources (section 11.4, R196) -/

/-- The 28 alert sources. -/
inductive AlertSource where
  | lock | syncSlip
  | silence (c : Fin 4) | overload (c : Fin 4) | channelState (c : Fin 4)
  | breakFailed | cueUnmatched | cueRefused | cartRefused | ingest | asrunHigh
  | gpi (g : Fin 8)
  deriving DecidableEq, Repr

/-- The bit of a source in the mask, the changed set and the level snapshot. -/
def AlertSource.bit : AlertSource → Nat
  | .lock => 0
  | .syncSlip => 1
  | .silence c => 2 + c.val
  | .overload c => 6 + c.val
  | .channelState c => 10 + c.val
  | .breakFailed => 14
  | .cueUnmatched => 15
  | .cueRefused => 16
  | .cartRefused => 17
  | .ingest => 18
  | .asrunHigh => 19
  | .gpi g => 20 + g.val

/-- The source set with one source. -/
def AlertSource.mask (a : AlertSource) : BitVec 32 := BitVec.ofNat 32 (2 ^ a.bit)

/-! ### Levels -/

/-- A channel state in which the channel is on air (R73). -/
def ChannelState.onAir : ChannelState → Bool
  | .preroll | .onBreak | .joining => true
  | .halted | .network | .emergency => false

/-- The receiver is LOCKED (R4, R5). -/
def State.locked (s : State) : Bool := s.rx.lock == .locked
/-- The ASRUN_HIGH level (R170). -/
def State.asrunHigh (s : State) : Bool := decide (Config.asrunHigh ≤ s.asrun.records.length)
/-- A line holds channel c's microphone live: function MIC_LIVE(c), stable level active (R163). -/
def GpiLine.holdsMic (l : GpiLine) (c : Fin 4) : Bool := l.stable && l.fn == .micLive c
/-- The mic-live level of channel c (R163). -/
def State.micLive (s : State) (c : Fin 4) : Bool := allGpi.any fun g => (s.gpiLine g).holdsMic c
/-- The level of a GPO function (R165). -/
def State.gpoLevel (s : State) : GpoFunction → Bool
  | .none => false
  | .onAir c => (s.ch c).state.onAir
  | .silence c => (s.ch c).monitor.silence
  | .alertPending => s.alert.pending
  | .locked => s.locked
/-- The drive of GPO line g: closed while its function's level is active (R165). -/
def State.gpoDrive (s : State) (g : Fin 4) : Bool := s.gpoLevel s.gpo[g.val]
/-- Bits from levels, the first at bit `base`. -/
def levelBits (base : Nat) : List Bool → Nat
  | [] => 0
  | b :: l => (if b then 2 ^ base else 0) + levelBits (base + 1) l
/-- The level snapshot: the present value of every level source, event bits 0 (R191, R196). -/
def State.snapshot (s : State) : BitVec 32 :=
  BitVec.ofNat 32
    (levelBits 0 [s.locked]
      + levelBits 2 (allChannels.map fun c => (s.ch c).monitor.silence)
      + levelBits 10 (allChannels.map fun c => (s.ch c).state.onAir)
      + levelBits 19 [s.asrunHigh]
      + levelBits 20 (allGpi.map fun g => (s.gpiLine g).stable))

end Sys2Proof.Machine
end

