-- ==== Sys2Proof/Machine/Alert.lean ====
section
/-! DEFINITION. The alert unit (section 11.4) and the as-run queue's writer and level (R169,
R170). -/

namespace Sys2Proof.Machine

/-- Build an ALERT (R191).  A ready ALERT not yet started is replaced, and its changed set and LOCK
transition count are carried into the new one. -/
def buildAlert (s : State) : State :=
  let a := s.alert
  let number := (a.number + 1) % 256
  let earlier : BitVec 32 := match a.ready with
    | some r => r.changed
    | none => 0
  let earlierCount : Nat := match a.ready with
    | some r => r.lockCount
    | none => 0
  s.setAlert { a with
    number := number
    changed := 0
    lockCount := 0
    ready := some {
      dest := a.dest
      src := s.lane.unitAddr
      number := number
      changed := a.changed ||| earlier
      snapshot := s.snapshot
      lockCount := min (a.lockCount + earlierCount) 255
      ac := s.clock.ac } }

/-- A source has changed (R190). -/
def raiseAlert (src : AlertSource) (s : State) : State :=
  if s.alert.mask &&& src.mask = 0 then s
  else
    let count := if src = .lock then min (s.alert.lockCount + 1) 255 else s.alert.lockCount
    let s := s.setAlert { s.alert with changed := s.alert.changed ||| src.mask, lockCount := count }
    if s.alert.pending then s
    else
      let s := buildAlert s
      s.setAlert { s.alert with pending := true }

/-- ALERT_CLEAR's work on the alert unit: whether an ALERT was built, and the state (R192). -/
def clearAlert (s : State) : Bool × State :=
  if s.alert.pending then
    if s.alert.changed = 0 then (false, s.setAlert { s.alert with pending := false })
    else (true, buildAlert s)
  else (false, s)

/-- Hand one record to the as-run queue (R169): stored, or lost and counted; the record that
brings the depth to 192 makes ASRUN_HIGH active (R170). -/
def asrunWrite (r : AsRunRecord) (s : State) : State :=
  if s.asrun.records.length < Config.asrunRecords then
    let before := s.asrunHigh
    let s := s.setAsrun { s.asrun with records := s.asrun.records ++ [r] }
    if before then s else if s.asrunHigh then raiseAlert .asrunHigh s else s
  else s.setAsrun { s.asrun with lost := bump s.asrun.lost }

/-- Hand several records over in order (R169). -/
def asrunWriteAll (l : List AsRunRecord) (s : State) : State :=
  l.foldl (fun t r => asrunWrite r t) s

/-- Remove the n oldest records and judge ASRUN_HIGH (R170, R172, R173). -/
def asrunRemove (n : Nat) (s : State) : State :=
  let before := s.asrunHigh
  let s := s.setAsrun { s.asrun with records := s.asrun.records.drop n }
  if before && !s.asrunHigh then raiseAlert .asrunHigh s else s

end Sys2Proof.Machine
end

