-- ==== Sys2Proof/Machine/Store.lean ====
section
/-! DEFINITION. The clip store (chapter 2): pages and addresses, the ring, the directory's
transitions, holds, and the ingest engine. -/

namespace Sys2Proof.Machine

/-! ### Pages and addresses (R19, R21) -/

/-- Rp, the pages of the rotation ring. -/
def Store.ringPages (st : Store) : Nat := Config.pages - st.lp

/-- The page k pages after `page` in ring order. -/
def Store.ringAdvance (st : Store) (page k : Nat) : Nat :=
  st.lp + (page - st.lp + k) % st.ringPages

/-- The ring's free pages (R21). -/
def Store.freePages (st : Store) : Nat :=
  if st.ringList.isEmpty then st.ringPages
  else (st.boundaryPage + st.ringPages - st.currentPage) % st.ringPages

/-- The ring is full: no free page with the list not empty (R21). -/
def Store.ringFull (st : Store) : Bool := !st.ringList.isEmpty && st.freePages == 0

/-- Pages that a number of words needs. -/
def pagesOf (words : Nat) : Nat := ceilDiv words Config.pageWords

/-- The word count of a clip (R19). -/
def DirEntry.words (e : DirEntry) : Nat := if e.layout = .mono then e.length else 2 * e.length

/-- The word address of word n of a clip (R19). -/
def State.wordAddress (s : State) (e : DirEntry) (n : Nat) : BitVec 28 :=
  match e.region with
  | .library => BitVec.ofNat 28 (e.firstPage * Config.pageWords + n)
  | .ring => BitVec.ofNat 28 (s.store.lp * Config.pageWords
      + ((e.firstPage - s.store.lp) * Config.pageWords + n)
        % (s.store.ringPages * Config.pageWords))

/-- A span of library pages: first page, and the page after the last. -/
abbrev Span := Nat × Nat

/-- Two spans share a page. -/
def Span.overlaps (a b : Span) : Bool := decide (a.1 < b.2) && decide (b.1 < a.2)

/-- The span of a library arm (section 2.4). -/
def armSpan (lp firstPage limit : Nat) : Span :=
  (firstPage, if limit = 0 then lp else min (firstPage + pagesOf limit) lp)

/-- The arm of an ARMED or FILLING entry. -/
def Store.armOf (st : Store) (n : Nat) : Option Arm :=
  match st.armList.find? (fun a => a.clip == n) with
  | some a => some a
  | none => match st.engine with
    | some g => if g.arm.clip = n then some g.arm else none
    | none => none

/-- The reserved spans of the store: those of the ARMED and FILLING library entries (section 2.4). -/
def State.reservedSpans (s : State) : List Span :=
  s.store.directory.filterMap fun p =>
    if p.2.region = .library ∧ (p.2.state = .armed ∨ p.2.state = .filling) then
      (s.store.armOf p.1).map fun a => armSpan s.store.lp p.2.firstPage a.limit
    else none

/-- The pages of a READY library clip, as a span. -/
def DirEntry.span (e : DirEntry) : Span := (e.firstPage, e.firstPage + pagesOf e.words)

/-- Entry p is a READY library clip with a page in the span (R24, R25). -/
def clipInSpan (sp : Span) (p : Nat × DirEntry) : Bool :=
  p.2.state == .ready && p.2.region == .library && p.2.span.overlaps sp

/-! ### Entries becoming EMPTY, holds (R22, R23) -/

/-- An entry becomes EMPTY: every field at its empty value (R22). -/
def emptyEntry (n : Nat) (s : State) : State := s.setEntry n .blank

/-- A hold asked for: granted for a READY entry only (R23). -/
def holdClip (n : Nat) (s : State) : Option State :=
  let e := s.entry n
  if e.state = .ready then some (s.setEntry n { e with hold := e.hold + 1 }) else none

/-- A hold given back (R23). -/
def releaseHold (n : Nat) (s : State) : State :=
  let e := s.entry n
  s.setEntry n { e with hold := e.hold - 1 }

/-- The clip is READY. -/
def State.isReady (s : State) (n : Nat) : Bool := (s.entry n).state == .ready

/-- The oldest ring clip leaves the list and becomes EMPTY; the boundary page moves to the next
clip's first page, or to the current page (R21). -/
def retireOldest (s : State) : State :=
  match s.store.ringList with
  | [] => s
  | n :: rest =>
    let boundary := match rest with
      | [] => s.store.currentPage
      | m :: _ => (s.entry m).firstPage
    let s := s.setStore { s.store with ringList := rest, boundaryPage := boundary }
    emptyEntry n s

/-- Retire up to n of the oldest unheld ring clips; answers how many (R34). -/
def retire : Nat → State → Nat × State
  | 0, s => (0, s)
  | n + 1, s =>
    match s.store.ringList with
    | [] => (0, s)
    | m :: _ =>
      if (s.entry m).hold > 0 then (0, s)
      else
        let r := retire n (retireOldest s)
        (r.1 + 1, r.2)

/-! ### Ends of an ingest (R32, R33) -/

/-- The engine idle, the last ingest report recorded, the INGEST event raised (R32, R33). -/
def reportIngest (clip : Nat) (outcome : IngestOutcome) (length : Nat) (s : State) : State :=
  raiseAlert .ingest
    (s.setStore { s.store with engine := none, lastReport := ⟨clip, outcome, length⟩ })

/-- A ring clip joins the ring list and the current page advances (R21). -/
def joinRing (n : Nat) (s : State) : State :=
  let st := s.store
  let e := s.entry n
  s.setStore { st with
    ringList := st.ringList ++ [n]
    currentPage := st.ringAdvance e.firstPage (pagesOf e.words)
    boundaryPage := if st.ringList.isEmpty then e.firstPage else st.boundaryPage }

/-- The length an ingest keeps (R32). -/
def keptLength (e : DirEntry) (g : Ingest) : Nat :=
  if e.layout = .mono then g.words else g.words / 2

/-- An ingest that ends becomes a READY clip, or an EMPTY entry when no clip frame was kept (R32). -/
def endIngest (outcome : IngestOutcome) (s : State) : State :=
  match s.store.engine with
  | none => s
  | some g =>
    let n := g.arm.clip
    let e := s.entry n
    let length := keptLength e g
    if length = 0 then reportIngest n .emptyClip 0 (emptyEntry n s)
    else
      let s := s.setEntry n { e with
        state := .ready, length := length, damage := min g.failed Config.counterLimit }
      let s := if e.region = .ring then joinRing n s else s
      reportIngest n outcome length s

/-- An ingest is discarded: the entry becomes EMPTY and the pointers stay (R33). -/
def discardIngest (outcome : IngestOutcome) (s : State) : State :=
  match s.store.engine with
  | none => s
  | some g => reportIngest g.arm.clip outcome 0 (emptyEntry g.arm.clip s)

/-- The end the captured frames have reached is carried out, when there is one. -/
def settleIngest (s : State) : State :=
  match s.store.engine with
  | some g => match g.ending with
    | some o => endIngest o s
    | none => s
  | none => s

/-! ### Starting an ingest (R26) -/

/-- The engine becomes busy with an entry: a ring ingest takes the current page, and is discarded
with NO_ROOM when the ring is full (R26). -/
def startIngest (a : Arm) (start : Option (AC × AC)) (s : State) : State :=
  let e := s.entry a.clip
  let page := if e.region = .ring then s.store.currentPage else e.firstPage
  let s := s.setEntry a.clip { e with state := .filling, firstPage := page }
  let s := s.setStore { s.store with
    armList := s.store.armList.filter (fun x => x.clip != a.clip)
    engine := some ⟨a, 0, 0, start, none, [], none⟩ }
  if e.region = .ring ∧ s.store.ringFull then discardIngest .noRoom s else s

/-! ### Capturing (R27, R29) -/

/-- What writing a word at word count `words` meets first (R27). -/
inductive PageCheck where
  | fits | regionEnd | ringFull
  deriving DecidableEq, Repr

/-- The page check before a word is written (R27). -/
def pageCheck (st : Store) (e : DirEntry) (words : Nat) : PageCheck :=
  if words = 0 ∨ words % Config.pageWords ≠ 0 then .fits
  else
    let k := words / Config.pageWords
    match e.region with
    | .library => if e.firstPage + k = st.lp then .regionEnd else .fits
    | .ring =>
      if st.ringAdvance e.firstPage k = st.boundaryPage then
        if st.ringList.isEmpty then .regionEnd else .ringFull
      else .fits

/-- Write the captured words of one frame, in ascending slot order, up to an end (R27). -/
def captureWords : List Sample → State → State
  | [], s => s
  | w :: ws, s =>
    match s.store.engine with
    | none => s
    | some g =>
      let e := s.entry g.arm.clip
      match pageCheck s.store e g.words with
      | .regionEnd => s.setStore { s.store with engine := some { g with ending := some .regionEnd } }
      | .ringFull => discardIngest .noRoom s
      | .fits =>
        let s := s.writeWord (s.wordAddress e g.words) w
        let words := g.words + 1
        if g.arm.limit > 0 ∧ words = g.arm.limit then
          s.setStore { s.store with
            engine := some { g with words := words, ending := some .limit } }
        else
          captureWords ws (s.setStore { s.store with engine := some { g with words := words } })

/-- The ingest captures a frame with this carrying AC (R26). -/
def Ingest.captures (g : Ingest) (carrying : AC) : Bool :=
  match g.start with
  | none => true
  | some (start, ref) => acAtOrAfter carrying start && acBefore ref carrying

/-- Sixteen slot words as a list. -/
def slotList (v : Vector Sample 16) : List Sample := v.toList

/-- A delivered frame at the busy engine (R27, R29): the frame at or after the stop moment ends the
ingest, one before the start moment is passed over, any other is captured. -/
def captureFrame (f : TransitFrame) (s : State) : State :=
  match s.store.engine with
  | none => s
  | some g =>
    if g.ending.isSome then s
    else
      let stopped := match g.stop with
        | some m => acAtOrAfter f.carrying m
        | none => false
      if stopped then
        s.setStore { s.store with engine := some { g with ending := some .cueStop } }
      else if g.captures f.carrying then
        let words := ((slotList f.slots).drop g.arm.firstSlot).take g.arm.width
        let s := captureWords words s
        match s.store.engine with
        | none => s
        | some g' =>
          if g'.words = g.words then s
          else s.setStore { s.store with engine := some { g' with
            failed := g'.failed + (if f.good then 0 else 1)
            captured := ⟨f.carrying, !f.good⟩ :: g'.captured } }
      else s

/-- Cut back from the end the captured frames at or after the stop moment (R29). -/
def cutBack (stop : AC) (width : Nat) : List Captured → Nat → Nat → List Captured × Nat × Nat
  | [], words, failed => ([], words, failed)
  | f :: rest, words, failed =>
    if acAtOrAfter f.carrying stop then
      cutBack stop width rest (words - width) (failed - (if f.failed then 1 else 0))
    else (f :: rest, words, failed)

/-- What the store answers a recording cue (R97, R98). -/
inductive RecordAnswer where
  | taken | busy | unmatched
  deriving DecidableEq, Repr

/-- A RECORD_START cue at the store (R28). -/
def storeRecordStart (key : BitVec 32) (start ref : AC) (s : State) : RecordAnswer × State :=
  match s.store.armList.find? (fun a => (s.entry a.clip).spotKey == key) with
  | none => (.unmatched, s)
  | some a =>
    if s.store.engine.isSome then (.busy, s) else (.taken, startIngest a (some (start, ref)) s)

/-- A RECORD_STOP cue at the store (R29). -/
def storeRecordStop (key : BitVec 32) (stop : AC) (s : State) : RecordAnswer × State :=
  match s.store.engine with
  | none => (.unmatched, s)
  | some g =>
    if (s.entry g.arm.clip).spotKey ≠ key ∨ g.stop.isSome then (.unmatched, s)
    else
      let cut := cutBack stop g.arm.width g.captured g.words g.failed
      let s := s.setStore { s.store with engine := some { g with
        stop := some stop, captured := cut.1, words := cut.2.1, failed := cut.2.2 } }
      let passed := match s.tx.lastCarrying with
        | some last => acAtOrBefore stop last
        | none => false
      (.taken, if passed then endIngest .cueStop s else s)

/-- DEVICE_RESET at the clip store (R40): every ARMED entry and a FILLING one becomes EMPTY with no
event and no report; READY clips and the ring stay. -/
def storeDeviceReset (s : State) : State :=
  let armed := s.store.armList.map (fun a => a.clip)
  let filling := match s.store.engine with
    | some g => [g.arm.clip]
    | none => []
  let s := (armed ++ filling).foldl (fun t n => emptyEntry n t) s
  s.setStore { s.store with armList := [], engine := none, lastReport := .initial }

/-- CLOCK_SET at the clip store: the moments of a FILLING ingest move by d (R92). -/
def storeShift (d : AC) (st : Store) : Store :=
  { st with engine := st.engine.map fun g => { g with
      start := g.start.map fun p => (p.1 + d, p.2 + d)
      stop := g.stop.map fun m => m + d
      captured := g.captured.map fun f => { f with carrying := f.carrying + d } } }

end Sys2Proof.Machine
end

