-- ==== Sys2Proof/Machine/Voice.lean ====
section
/-! DEFINITION. The voice engine (chapter 3): claims, release, priming, the requests of R42, and the
handling of a voice in an egress frame (R48, R50 to R55). -/

namespace Sys2Proof.Machine

/-! ### The pool and claims (R43, R44) -/

/-- The FREE voices, in ascending number. -/
def State.freeVoices (s : State) : List (Fin 16) :=
  allVoices.filter fun v => (s.voice v).state == .free

/-- A break claim: the two lowest FREE voices when at least 2 + K are FREE (R43). -/
def claimBreak (c : Fin 4) (s : State) : Option (Fin 16 × Fin 16 × State) :=
  if s.freeVoices.length < 2 + s.reserve then none
  else match s.freeVoices with
    | a :: b :: _ =>
      let grant : Voice := { Voice.freed with state := .reserved, owner := some ⟨c, .brk⟩ }
      some (a, b, (s.setVoice a grant).setVoice b grant)
    | _ => none

/-- Why a cart or emergency claim is refused (R44). -/
inductive ClaimRefusal where
  | noVoice | notReady
  deriving DecidableEq, Repr

/-- A cart or emergency claim: the lowest FREE voice, with a hold on the clip (R44). -/
def claimOne (c : Fin 4) (p : Purpose) (clip : Nat) (s : State) :
    Except ClaimRefusal (Fin 16 × State) :=
  match s.freeVoices with
  | [] => .error .noVoice
  | v :: _ => match holdClip clip s with
    | none => .error .notReady
    | some s => .ok (v, s.setVoice v
        { Voice.freed with state := .reserved, owner := some ⟨c, p⟩, clip := some clip })

/-! ### Events and release (R45, R60) -/

/-- An event joins the end of the voice event queue (R60). -/
def raiseEvent (k : EventKind) (v : Fin 16) (ac : AC) (s : State) : State :=
  s.setEvents (s.events ++ [⟨k, v, ac, 0⟩])

/-- An event of the voice is pending. -/
def State.eventPending (s : State) (v : Fin 16) : Bool := s.events.any fun e => e.voice == v

/-- The voice has given its output in the frame in formation. -/
def State.hasOutput (s : State) (v : Fin 16) : Bool := s.forming.outputs.any fun o => o.voice == v

/-- The first frame with no output of the voice, when it is stopped now: the next frame, or the
one after it when the voice has already given that frame's output (R57, R83). -/
def State.stopAC (s : State) (v : Fin 16) : AC :=
  if s.hasOutput v then s.nextAC + 1 else s.nextAC

/-- A release (R45): the voice's pending events are removed, its hold is returned and it becomes
FREE.  A FREE voice ignores it (R42). -/
def releaseVoice (v : Fin 16) (s : State) : State :=
  if (s.voice v).state = .free then s
  else
    let s := s.setEvents (s.events.filter fun e => e.voice != v)
    let s := match (s.voice v).clip with
      | some n => releaseHold n s
      | none => s
    s.setVoice v .freed

/-- The voice is owned by channel c. -/
def Voice.ownedBy (x : Voice) (c : Fin 4) : Bool :=
  match x.owner with
  | some o => o.channel == c
  | none => false

/-- A channel release: every voice the channel owns, in ascending number (R45). -/
def releaseChannelVoices (c : Fin 4) (s : State) : State :=
  allVoices.foldl (fun t v => if (t.voice v).ownedBy c then releaseVoice v t else t) s

/-! ### Priming (R47) -/

/-- The ramp forms a prime request can carry (R47). -/
inductive RampReq where
  | explicit (target rate interval : Nat) (stop : Bool)
  | toZero (j : Nat)
  | toLevel (target j : Nat)
  deriving DecidableEq, Repr

/-- A prime request (R47); the step is `none` for "base". -/
structure PrimeReq where
  clip  : Nat
  step  : Option Nat
  loop  : Bool
  start : AC
  code  : Nat
  ramp  : RampReq
  deriving DecidableEq, Repr

/-- The explicit ramp with its values at the limits of R54. -/
def explicitRamp (target rate interval : Nat) (stop : Bool) : Ramp :=
  ⟨min target Config.maxCode, clampNat 1 255 rate, min interval 3, stop⟩

/-- The ramp of a timed fade to zero from a code (R57). -/
def zeroRamp (code j : Nat) : Ramp := ⟨0, fadeRate code j, 0, true⟩

/-- The ramp of a timed fade to a level from a code (R58). -/
def levelRamp (code target j : Nat) : Ramp := ⟨target, fadeRate (distance target code) j, 0, false⟩

/-- The code and the ramp a prime sets (R47, R56 to R58).  DESIGN CHOICE (log entry 38): a timed fade to
zero with J = 0 keeps the initial code and takes target 0, rate 1 and STOP, since R57 gives J = 0 for
a PLAYING voice only. -/
def primeRamp (code : Nat) : RampReq → Nat × Ramp
  | .explicit t r p stop => (code, explicitRamp t r p stop)
  | .toZero j => (code, zeroRamp code j)
  | .toLevel t j =>
    let t := min t Config.maxCode
    (if j = 0 then t else code, levelRamp code t j)

/-- The hold a prime asks for: none for the voice's present clip; otherwise one on the new clip,
and the previous clip's is returned once it is granted (R47). -/
def primeHold (x : Voice) (clip : Nat) (s : State) : Option State :=
  if x.clip = some clip then some s
  else match holdClip clip s with
    | none => none
    | some s => match x.clip with
      | some old => some (releaseHold old s)
      | none => some s

/-- The loop a prime sets (R47). -/
def primeLoop (e : DirEntry) (wanted : Bool) : Option (Nat × Nat) :=
  if wanted then some (e.loop.getD (0, e.length)) else none

/-- A prime request: whether it was accepted, and the state (R47). -/
def primeVoice (v : Fin 16) (q : PrimeReq) (s : State) : Bool × State :=
  let x := s.voice v
  if x.state ≠ .reserved ∨ s.eventPending v = true then (false, s)
  else match primeHold x q.clip s with
    | none => (false, s)
    | some s =>
      let e := s.entry q.clip
      let cr := primeRamp (min q.code Config.maxCode) q.ramp
      (true, s.setVoice v { x with
        state := .primed
        clip := some q.clip
        index := 0
        fraction := 0
        step := clampNat 32768 98304 (q.step.getD (baseStep e.rate))
        loop := primeLoop e q.loop
        startFrame := some q.start
        code := cr.1
        ramp := some cr.2
        staged := none })

/-! ### Requests on a sounding voice (R42, R49, R56 to R59) -/

/-- A PLAYING voice stops: it becomes RESERVED, keeps its owner and clip, and loses its start
frame, staged update and ramp; the finishing event is raised (R41). -/
def stopVoice (k : EventKind) (v : Fin 16) (ac : AC) (s : State) : State :=
  let x := s.voice v
  raiseEvent k v ac
    (s.setVoice v { x with state := .reserved, startFrame := none, ramp := none, staged := none })

/-- A timed fade to zero over j blocks: whether the voice took it (R57).  DESIGN CHOICE (log entry 40):
with j = 0 its FADED joins the queue now, whatever voices of the frame are still to be handled (R60). -/
def fadeToZero (v : Fin 16) (j : Nat) (s : State) : Bool × State :=
  let x := s.voice v
  if x.state ≠ .playing then (false, s)
  else if j = 0 then (true, stopVoice .faded v (s.stopAC v) s)
  else (true, s.setVoice v { x with ramp := some (zeroRamp x.code j), staged := none })

/-- A timed fade to a level over j blocks: whether the voice took it (R58). -/
def fadeToLevel (v : Fin 16) (target j : Nat) (s : State) : Bool × State :=
  let x := s.voice v
  let t := min target Config.maxCode
  if x.state ≠ .playing then (false, s)
  else (true, s.setVoice v { x with
    code := if j = 0 then t else x.code, ramp := some (levelRamp x.code t j), staged := none })

/-- A ramp request: whether the voice took it (R56). -/
def rampVoice (v : Fin 16) (target rate interval : Nat) (stop : Bool) (s : State) : Bool × State :=
  let x := s.voice v
  if x.state ≠ .playing then (false, s)
  else (true, s.setVoice v { x with
    ramp := some (explicitRamp target rate interval stop)
    staged := if stop then none else x.staged })

/-- A stage request: ignored unless the voice is PLAYING with end action HOLD (R59). -/
def stageVoice (v : Fin 16) (target rate : Nat) (s : State) : Bool × State :=
  let x := s.voice v
  let stops := match x.ramp with
    | some r => r.stop
    | none => false
  if x.state ≠ .playing ∨ stops = true then (false, s)
  else (true, s.setVoice v { x with
    staged := some ⟨min target Config.maxCode, clampNat 1 255 rate⟩ })

/-- A cancel request: a PRIMED voice returns to RESERVED, a PLAYING one stops with FADED (R49), which joins
the queue now (R60; DESIGN CHOICE, log entry 40). -/
def cancelVoice (v : Fin 16) (s : State) : Bool × State :=
  let x := s.voice v
  match x.state with
  | .primed => (true, s.setVoice v { x with state := .reserved })
  | .playing => fadeToZero v 0 s
  | .free | .reserved => (false, s)

/-! ### A voice in an egress frame (R48, R50 to R55) -/

/-- A PRIMED voice starts in the next frame: its start frame is that frame, or has passed (R48). -/
def State.startDue (s : State) (v : Fin 16) : Bool :=
  let x := s.voice v
  x.state == .primed && match x.startFrame with
    | some f => acAtOrBefore f s.nextAC
    | none => false

/-- The staged update applied at a boundary (R59). -/
def Voice.applyStaged (x : Voice) : Voice :=
  match x.staged, x.ramp with
  | some u, some r =>
    { x with ramp := some { r with target := u.target, rate := u.rate, stop := false }, staged := none }
  | some _, none => { x with staged := none }
  | none, _ => x

/-- A ramp moves at the boundaries whose block number is divisible by 2^p (R55). -/
def Ramp.movesAt (r : Ramp) (a : AC) : Bool := blockNumber a % 2 ^ r.interval == 0

/-- Step 1 of R50 on a voice: at a boundary the staged update is applied and the ramp moves; the
flag says that the move left C = T = 0 with end action STOP (R55).  DESIGN CHOICE (log entry 58): a ramp
with STOP that meets its first qualifying boundary with C = T = 0 already stops the voice there, in every
form of the request, as R57 says of a timed fade begun at C = 0. -/
def Voice.atBoundary (x : Voice) (a : AC) : Voice × Bool :=
  if isBoundary a then
    let x := x.applyStaged
    match x.ramp with
    | none => (x, false)
    | some r =>
      if r.movesAt a then
        let code := moveToward x.code r.target r.rate
        ({ x with code := code }, r.stop && code == 0 && r.target == 0)
      else (x, false)
  else (x, false)

/-- The sample of clip frame i on one side (0 L, 1 R) (R19, R51). -/
def State.clipSample (s : State) (e : DirEntry) (i side : Nat) : Int :=
  let n := if e.layout = .mono then i else 2 * i + side
  (s.readWord (s.wordAddress e n)).toInt

/-- The index whose sample is s1 (R51). -/
def Voice.nextIndex (x : Voice) (length : Nat) : Nat :=
  match x.loop with
  | some (a, b) => if x.index + 1 = b then a else x.index + 1
  | none => if x.index + 1 = length then x.index else x.index + 1

/-- Linear interpolation, rounded toward minus infinity (R51). -/
def interpolate (s0 s1 : Int) (fraction : Nat) : Int := s0 + (s1 - s0) * fraction / 65536

/-- A voice's output on one side (R51). -/
def State.voiceOutput (s : State) (x : Voice) (e : DirEntry) (side : Nat) : Int :=
  interpolate (s.clipSample e x.index side) (s.clipSample e (x.nextIndex e.length) side) x.fraction

/-- The position after an output (R52). -/
def Voice.advance (x : Voice) (length : Nat) : Voice :=
  let sum := x.fraction + x.step
  let i := x.index + sum / 65536
  match x.loop with
  | some (a, b) =>
    { x with index := if b ≤ i then a + (i - a) % (b - a) else i, fraction := sum % 65536 }
  | none =>
    if length ≤ i then { x with index := length, fraction := 0 }
    else { x with index := i, fraction := sum % 65536 }

/-- The voice has run off its clip's end: no loop, and i at or above the length (R50 step 2). -/
def Voice.ranOff (x : Voice) (length : Nat) : Bool := x.loop.isNone && decide (length ≤ x.index)

/-- Steps 1 to 4 of R50 for a PLAYING voice in the next frame. -/
def playVoice (v : Fin 16) (s : State) : State :=
  let a := s.nextAC
  let xb := (s.voice v).atBoundary a
  let x := xb.1
  let s := s.setVoice v x
  let e := s.entry (x.clip.getD 0)
  if xb.2 then stopVoice .faded v a s
  else if x.ranOff e.length then stopVoice .ended v a s
  else
    let channel := match x.owner with
      | some o => o.channel
      | none => 0
    let out : VoiceOut :=
      ⟨v, channel, s.voiceOutput x e 0, s.voiceOutput x e 1, x.code⟩
    let s := s.setForming { s.forming with outputs := s.forming.outputs ++ [out] }
    s.setVoice v (x.advance e.length)

/-- A PRIMED voice becomes PLAYING and raises STARTED (R48). -/
def startVoice (v : Fin 16) (s : State) : State :=
  let a := s.nextAC
  raiseEvent .started v a (s.setVoice v { s.voice v with state := .playing, startAC := some a })

/-- The handling of one voice in the frame in formation (R48, R50). -/
def handleVoice (v : Fin 16) (s : State) : State :=
  let s := if s.startDue v then startVoice v s else s
  if (s.voice v).state = .playing then playVoice v s else s

/-- Handle the voices not yet handled in this frame, up to number `last`, in ascending order
(R50).  DESIGN CHOICE (log entry 39): a voice primed for this frame after its number was passed is not
gone back to; it starts in the next frame, late as R48 has a late voice start. -/
def handleThrough (last : Nat) (s : State) : State :=
  allVoices.foldl (fun t v =>
    if t.forming.cursor ≤ v.val ∧ v.val ≤ last then
      let t := handleVoice v t
      t.setForming { t.forming with cursor := v.val + 1 }
    else t) s

/-- The start of voice v alone in the frame in formation, after the voices before it: its output is still
to come (R48, R49). -/
def startThrough (v : Fin 16) (s : State) : State :=
  let s := match v.val with
    | 0 => s
    | n + 1 => handleThrough n s
  if s.startDue v then startVoice v s else s

/-- Voice v is still to start in the next frame, which has been begun and not yet formed. -/
def State.startAhead (s : State) (v : Fin 16) : Bool :=
  s.forming.opened && decide (s.forming.cursor ≤ v.val) && s.startDue v

/-- Voice v runs off its clip's end in the next frame (R53). -/
def State.endDue (s : State) (v : Fin 16) : Bool :=
  let x := s.voice v
  x.state == .playing && !(x.atBoundary s.nextAC).2
    && x.ranOff (s.entry (x.clip.getD 0)).length

/-- Voice v's ramp reaches 0 with STOP in the next frame (R55). -/
def State.fadedDue (s : State) (v : Fin 16) : Bool :=
  let x := s.voice v
  x.state == .playing && (x.atBoundary s.nextAC).2

/-- CLOCK_SET at the voice engine: start frames of PRIMED voices move; pending events keep their
AC and hand d to their owners (R48, R92). -/
def voiceShift (d : AC) (s : State) : State :=
  let s := s.setVoices (s.voices.map fun x =>
    if x.state = .primed then { x with startFrame := x.startFrame.map fun f => f + d } else x)
  s.setEvents (s.events.map fun e => { e with shift := e.shift + d })

/-- Voices a channel owns for a purpose (R62). -/
def State.voicesOwned (s : State) (c : Fin 4) (p : Purpose) : Nat :=
  (allVoices.filter fun v => (s.voice v).owner == some ⟨c, p⟩).length

end Sys2Proof.Machine
end

