-- ==== Sys2Proof/Machine/Mixer.lean ====
section
/-! DEFINITION. The channel mixer (chapter 4): the requests on the channel state (R67 to R72), the
network path gain (R74), the duck (R75, R76) and the mix (R77 to R79). -/

namespace Sys2Proof.Machine

/-! ### Channel states (R67 to R73) -/

/-- The channel state changes; a change of the on-air level is reported (R73). -/
def setChannelState (c : Fin 4) (new : ChannelState) (s : State) : State :=
  let x := s.ch c
  let s' := s.setCh c { x with state := new }
  if x.state.onAir == new.onAir then s' else raiseAlert (.channelState c) s'

/-- A timed fade of the network path gain to a level over j blocks (R74). -/
def fadeGain (c : Fin 4) (level j : Nat) (s : State) : State :=
  let x := s.ch c
  let t := min level Config.maxCode
  s.setCh c { x with
    gain := if j = 0 then t else x.gain
    gainTarget := t
    gainRate := fadeRate (distance t x.gain) j }

/-- A preroll request: whether it was accepted, and the state (R68). -/
def requestPreroll (c : Fin 4) (s : State) : Bool × State :=
  let x := s.ch c
  match x.state with
  | .network => (true, setChannelState c .preroll (s.setCh c { x with origin := some .network }))
  | .emergency => (true, setChannelState c .preroll (s.setCh c { x with origin := some .emergency }))
  | .halted | .preroll | .onBreak | .joining => (false, s)

/-- The two conditions of the emergency return hold: gain at 3840 and emergency clear (R72). -/
def Channel.returnDone (x : Channel) : Bool :=
  x.returning && x.emClear && x.gain == Config.unityCode

/-- The channel leaves EMERGENCY for NETWORK when the conditions of R72 hold. -/
def finishReturn (c : Fin 4) (s : State) : State :=
  let x := s.ch c
  if x.state = .emergency ∧ x.returnDone = true then
    setChannelState c .network (s.setCh c { x with returning := false, emClear := false })
  else s

/-- A withdraw request (R68). -/
def requestWithdraw (c : Fin 4) (s : State) : State :=
  let x := s.ch c
  if x.state ≠ .preroll then s
  else
    let s := s.setCh c { x with origin := none }
    match x.origin with
    | some .emergency => finishReturn c (setChannelState c .emergency s)
    | some .network | none => setChannelState c .network s

/-- An open request with the break's network level: whether the break takes over emergency fill,
and the state (R69). -/
def requestOpen (c : Fin 4) (level : Nat) (s : State) : Bool × State :=
  let x := s.ch c
  if x.state ≠ .preroll then (false, s)
  else
    let s := s.setCh c { x with origin := none, returning := false, emClear := false }
    (x.origin == some .emergency, fadeGain c level x.config.openFade (setChannelState c .onBreak s))

/-- A join request (R70). -/
def requestJoin (c : Fin 4) (s : State) : State :=
  let x := s.ch c
  if x.state ≠ .onBreak then s
  else fadeGain c Config.unityCode x.config.joinFade
    (setChannelState c .joining (s.setCh c { x with breakClear := false }))

/-- The two conditions of the join's completion hold (R71). -/
def Channel.joinDone (x : Channel) : Bool :=
  x.state == .joining && x.breakClear && x.gain == Config.unityCode

/-- An emergency request: whether it was accepted, and the state (R72). -/
def requestEmergency (c : Fin 4) (s : State) : Bool × State :=
  let x := s.ch c
  if x.state ≠ .network then (false, s)
  else (true, fadeGain c 0 x.config.openFade
    (setChannelState c .emergency (s.setCh c { x with returning := false, emClear := false })))

/-- A recover request (R72). -/
def requestRecover (c : Fin 4) (s : State) : State :=
  let x := s.ch c
  if x.state = .emergency ∧ x.returning = false then
    fadeGain c Config.unityCode x.config.joinFade (s.setCh c { x with returning := true })
  else s

/-- An emergency clear request (R72). -/
def requestEmergencyClear (c : Fin 4) (s : State) : State :=
  let x := s.ch c
  if (x.state = .emergency ∨ x.state = .preroll) ∧ x.returning = true then
    finishReturn c (s.setCh c { x with emClear := true })
  else s

/-! ### Gain and duck at a boundary (R74, R75) -/

/-- The network path gain of an enabled channel moves (R74). -/
def moveGain (c : Fin 4) (s : State) : State :=
  let x := s.ch c
  if x.config.enable then
    s.setCh c { x with gain := moveToward x.gain x.gainTarget x.gainRate }
  else s

/-- The duck moves toward the duck depth while the microphone is live, toward 0 otherwise (R75). -/
def moveDuck (c : Fin 4) (s : State) : State :=
  let x := s.ch c
  let toward := if s.micLive c then x.config.duckDepth else 0
  s.setCh c { x with duck := moveToward x.duck toward x.config.duckRate }

/-! ### The mix (R76 to R79) -/

/-- The effective code max(0, C − Dk) (R76). -/
def effectiveCode (code duck : Nat) : Nat := code - duck

/-- One voice's term on a side (R77). -/
def voiceTerm (duck side : Nat) (o : VoiceOut) : Int :=
  (if side = 0 then o.left else o.right) * (multiplier (effectiveCode o.code duck) : Int)

/-- The sum of a side (R77): the channel's voice terms and the network term. -/
def mixSum (c : Fin 4) (x : Channel) (outs : List VoiceOut) (side : Nat) (n : Int) : Int :=
  ((outs.filter fun o => o.channel == c).map (voiceTerm x.duck side)).sum
    + n * (multiplier x.gain : Int)

/-- The sum rounded to the nearest integer, halves upward (R78). -/
def roundMix (acc : Int) : Int := (acc + 4194304) / 8388608

/-- The rounded value put into the sample range (R78). -/
def saturate (x : Int) : Int := min (max x (-8388608)) 8388607

/-- A side's result and whether it was replaced (R78). -/
def mixResult (acc : Int) : Int × Bool :=
  let r := roundMix acc
  (saturate r, saturate r != r)

/-- A saturated side is counted and raises OVERLOAD(c) (R78). -/
def countSaturation (c : Fin 4) (replaced : Bool) (s : State) : State :=
  if replaced then
    let x := s.ch c
    raiseAlert (.overload c) (s.setCh c { x with saturation := bump x.saturation })
  else s

/-- The slot word at a slot number. -/
def slotAt (v : Vector Sample 16) (i : Nat) : Sample := v[i]?.getD 0

/-- |x| of a sample value, as the silence monitor takes it (R153). -/
def peakOf (x : Int) : Nat := x.natAbs

/-- The running peaks after one more frame (R153, R158). -/
def Peaks.add (p : Option Peaks) (a : AC) (egress ingress : Nat) : Peaks :=
  match p with
  | none => ⟨egress, ingress, a⟩
  | some p => ⟨max p.egress egress, max p.ingress ingress, p.first⟩

/-- The mix of one enabled channel in the frame in formation: its two egress slots written, its
saturations counted and its running peaks extended (R77 to R79, R153, R158).  `carried` is the
ingress frame carried, none in HOLDOVER. -/
def mixChannel (c : Fin 4) (carried : Option (Vector Sample 16))
    (slots : Vector Sample 16) (s : State) : Vector Sample 16 × State :=
  let x := s.ch c
  if x.state = .halted then (slots, s)
  else
    let net (i : Nat) : Int := match carried with
      | some v => (slotAt v i).toInt
      | none => 0
    let nL := net x.config.slotL
    let nR := net x.config.slotR
    let outs := s.forming.outputs
    let l := mixResult (mixSum c x outs 0 nL)
    let r := mixResult (mixSum c x outs 1 nR)
    let slots := (slots.setIfInBounds x.config.slotL (BitVec.ofInt 24 l.1)).setIfInBounds
      x.config.slotR (BitVec.ofInt 24 r.1)
    let s := countSaturation c r.2 (countSaturation c l.2 s)
    let y := s.ch c
    let p := Peaks.add y.monitor.peaks s.nextAC
      (max (peakOf l.1) (peakOf r.1)) (max (peakOf nL) (peakOf nR))
    (slots, s.setCh c { y with monitor := { y.monitor with peaks := some p } })

/-- The mixes of all channels, in ascending order (R77, R79). -/
def mixAll (carried : Option (Vector Sample 16)) (s : State) : Vector Sample 16 × State :=
  allChannels.foldl (fun p c => mixChannel c carried p.1 p.2)
    (carried.getD (Vector.replicate 16 0), s)

end Sys2Proof.Machine
end

