-- ==== Sys2Proof/Machine/Silence.lean ====
section
/-! DEFINITION. The silence monitor and emergency fill (sections 9.1 and 9.2), and the as-run
records of an emergency fill (R161). -/

namespace Sys2Proof.Machine

/-- The monitor of channel c replaced. -/
def State.setMonitor (s : State) (c : Fin 4) (m : Monitor) : State :=
  s.setCh c { s.ch c with monitor := m }

/-- The monitor of channel c. -/
def State.mon (s : State) (c : Fin 4) : Monitor := (s.ch c).monitor

/-- The frames aired and the two ACs of an aired record: end minus start, mod 2^32 (R168). -/
def airedBetween (start stop : AC) : Aired := ⟨start, stop, (stop - start).toNat⟩

/-- The silent count becomes 0 and the SILENCE level inactive, reported when it was active
(R154). -/
def clearSilence (c : Fin 4) (s : State) : State :=
  let m := s.mon c
  let s := s.setMonitor c { m with silentCount := 0, silence := false, limitReached := false }
  if m.silence then raiseAlert (.silence c) s else s

/-! ### Emergency fill (R155 to R157) -/

/-- An emergency fill starts (R156); a refused claim is counted (R155, R157). -/
def startEmergency (c : Fin 4) (clip : Nat) (s : State) : State :=
  match claimOne c .emergency clip s with
  | .error _ =>
    let m := s.mon c
    s.setMonitor c { m with refusals := bump m.refusals }
  | .ok (v, s) =>
    let r := requestEmergency c s
    if r.1 then
      let s := r.2
      let x := s.ch c
      let e := s.entry clip
      let level := targetCode x.config.emLevel e.trim
      let s := (primeVoice v {
        clip := clip, step := none, loop := true, start := nextBoundary s.clock.ac, code := 0,
        ramp := .toLevel level x.config.openFade } s).2
      s.setMonitor c { s.mon c with
        phase := .covering
        emRecord := some ⟨v, clip, e.spotKey, none⟩
        recoveryCount := 0 }
    else releaseVoice v s

/-- The automatic attempt of R155 after a judged block. -/
def attemptFill (c : Fin 4) (s : State) : State :=
  let x := s.ch c
  if x.monitor.silence = true ∧ x.state = .network ∧ x.config.autoFill = true
      ∧ x.monitor.phase = .none then
    match x.config.emClip with
    | some clip => startEmergency c clip s
    | none => s
  else s

/-- A forced emergency fill (R157). -/
def forceFill (c : Fin 4) (s : State) : State :=
  let x := s.ch c
  if x.config.enable = true ∧ x.state = .network ∧ x.monitor.phase = .none then
    match x.config.emClip with
    | some clip => startEmergency c clip s
    | none => s
  else s

/-! ### Judging a block (R153, R154, R158) -/

/-- The recovery count after a judged block (R158). -/
def judgeRecovery (x : Channel) (p : Peaks) : Nat :=
  let m := x.monitor
  let started := match m.emRecord with
    | some r => match r.startAC with
      | some a => acAtOrAfter p.first a
      | none => false
    | none => false
  if m.phase = .covering ∧ x.state = .emergency ∧ x.returning = false ∧ started = true then
    if p.ingress ≥ x.config.silThreshold then bump m.recoveryCount else 0
  else m.recoveryCount

/-- The judgment of a block of channel c when its last frame has been formed (R153, R154, R158):
counts, a level becoming inactive, and the attempt of R155 while the level stands active.  The
level becoming active is the SILENCE_LIMIT_REACHED step, the start of a recovery the
RECOVERY_LIMIT_REACHED step. -/
def judgeBlock (c : Fin 4) (s : State) : State :=
  let x := s.ch c
  match x.monitor.peaks with
  | none => s
  | some p =>
    if x.state = .halted then s
    else
      let count := if p.egress < x.config.silThreshold then bump x.monitor.silentCount else 0
      let reached := decide (x.config.silLimit ≤ count)
      let m := { x.monitor with
        silentCount := count
        silence := x.monitor.silence && reached
        limitReached := reached && !x.monitor.silence
        recoveryCount := judgeRecovery x p
        peaks := none }
      let s := s.setMonitor c m
      if x.monitor.silence then
        if reached then attemptFill c s else raiseAlert (.silence c) s
      else s

/-- SILENCE_LIMIT_REACHED is due on channel c. -/
def State.silenceDue (s : State) (c : Fin 4) : Bool :=
  let x := s.ch c
  x.monitor.limitReached && !x.monitor.silence
    && decide (x.config.silLimit ≤ x.monitor.silentCount)

/-- The SILENCE level becomes active and is reported, and a fill is attempted (R154, R155). -/
def reachSilence (c : Fin 4) (s : State) : State :=
  if s.silenceDue c then
    attemptFill c (raiseAlert (.silence c)
      (s.setMonitor c { s.mon c with silence := true, limitReached := false }))
  else s

/-- RECOVERY_LIMIT_REACHED is due on channel c. -/
def State.recoveryDue (s : State) (c : Fin 4) : Bool :=
  let x := s.ch c
  x.monitor.phase == .covering && x.state == .emergency && !x.returning
    && decide (x.config.recLimit ≤ x.monitor.recoveryCount)

/-- Recovery begins: the voice fades over J_j, the phase becomes RECOVERING, and the mixer is sent
the recover request (R159).  With J_j = 0 the FADED joins the queue now (R60; DESIGN CHOICE, log entry 40). -/
def beginRecovery (c : Fin 4) (s : State) : State :=
  if s.recoveryDue c then
    let s := match (s.mon c).emRecord with
      | some r => (fadeToZero r.voice (s.ch c).config.joinFade s).2
      | none => s
    let s := s.setMonitor c { s.mon c with phase := .recovering }
    let s := requestRecover c s
    s.setMonitor c { s.mon c with recoveryCount := 0 }
  else s

/-- A break has taken over the channel (R160).  With J_o = 0 the FADED joins the queue now, before the
events of the frame at S (R60; DESIGN CHOICE, log entry 40). -/
def takeOver (c : Fin 4) (s : State) : State :=
  let m := s.mon c
  if m.phase = .covering ∨ m.phase = .recovering then
    let s := match m.emRecord with
      | some r => (fadeToZero r.voice (s.ch c).config.openFade s).2
      | none => s
    s.setMonitor c { s.mon c with phase := .yielding, recoveryCount := 0 }
  else s

/-! ### The monitor's events and records (R156, R159 to R161) -/

/-- The EMERGENCY as-run record of a fill (R161). -/
def emergencyRow (c : Fin 4) (r : EmRecord) (o : AirOutcome) (cause : Cause)
    (aired : Option Aired) : AsRunRecord where
  channel := c
  kind := .emergency
  breakNo := none
  itemNo := none
  clip := r.clip
  spotKey := r.spotKey
  outcome := o
  cause := cause
  late := false
  planned := none
  aired := aired
  squeeze := none

/-- The monitor takes an event of its voice (R156, R159, R160).  The event's AC is used with the
CLOCK_SET deltas since it was raised (R92). -/
def takeEmergencyEvent (c : Fin 4) (e : VoiceEvent) (s : State) : State :=
  let m := s.mon c
  let at_ := e.ac + e.shift
  match m.emRecord with
  | none => s
  | some r =>
    if e.kind = .started then
      s.setMonitor c { m with emRecord := some { r with startAC := some at_ } }
    else if m.phase = .recovering ∨ m.phase = .yielding then
      let s := asrunWrite (emergencyRow c r .full .none
        (some (airedBetween (r.startAC.getD at_) at_))) s
      let s := releaseVoice r.voice s
      let s := s.setMonitor c { s.mon c with phase := .none, emRecord := none }
      if m.phase = .recovering then requestEmergencyClear c s else s
    else s

/-- The AC, with its deltas, of the oldest pending event of a voice that satisfies a test. -/
def State.pendingAC (s : State) (v : Fin 16) (test : EventKind → Bool) : Option AC :=
  (s.events.find? fun e => e.voice == v && test e.kind).map fun e => e.ac + e.shift

/-- The actual start AC of a voice's airing at a reset: taken, or of its pending STARTED, or of the
PLAYING voice (R150, R161). -/
def State.airStart (s : State) (v : Fin 16) (taken : Option AC) : Option AC :=
  match taken with
  | some a => some a
  | none => match s.pendingAC v (fun k => k == .started) with
    | some a => some a
    | none => if (s.voice v).state = .playing then (s.voice v).startAC else none

/-- The actual end AC of a voice's airing at a reset: of a finishing event already raised, and
otherwise the first frame with no output (R83, R150, R161). -/
def State.airEnd (s : State) (v : Fin 16) : AC :=
  (s.pendingAC v (fun k => k != .started)).getD (s.stopAC v)

/-- The record of a fill that a reset ends (R161). -/
def resetEmergencyRows (c : Fin 4) (s : State) : List AsRunRecord :=
  match (s.mon c).emRecord with
  | none => []
  | some r => match s.airStart r.voice r.startAC with
    | some a => [emergencyRow c r .cut .reset (some (airedBetween a (s.airEnd r.voice)))]
    | none => [emergencyRow c r .notAired .reset none]

end Sys2Proof.Machine
end

