-- ==== Sys2Proof/Machine/Running.lean ====
section
/-! DEFINITION. The break scheduler from trigger to removal (chapters 6 to 8): the queue's records,
triggers, the run of a break, the join, early ends, and the records of a reset. -/

namespace Sys2Proof.Machine

/-! ### Records and removal (R104, R105, R115) -/

/-- The states of a break in flight (R103). -/
def RecState.inFlight : RecState → Bool
  | .preroll | .onAir | .joining => true
  | .loading | .pending => false

/-- The break in flight of channel c. -/
def State.flight (s : State) (c : Fin 4) : Option BreakRecord :=
  (s.ch c).queue.find? fun r => r.state.inFlight

/-- The record of channel c with a break number. -/
def State.record (s : State) (c : Fin 4) (n : Nat) : Option BreakRecord :=
  (s.ch c).queue.find? fun r => r.number == n

/-- The record with a break number replaced by f of it. -/
def modRecord (c : Fin 4) (n : Nat) (f : BreakRecord → BreakRecord) (s : State) : State :=
  let x := s.ch c
  s.setCh c { x with queue := x.queue.map fun r => if r.number = n then f r else r }

/-- The free item records of the pool (R105). -/
def State.poolFree (s : State) : Nat :=
  Config.poolItems
    - (allChannels.map fun c => ((s.ch c).queue.map fun r => r.items.length).sum).sum

/-- One hold returned for each clip of a list. -/
def releaseHolds (clips : List Nat) (s : State) : State :=
  clips.foldl (fun t n => releaseHold n t) s

/-- One hold taken for each clip of a list; each clip is READY when this is used (R110). -/
def takeHolds (clips : List Nat) (s : State) : State :=
  clips.foldl (fun t n => (holdClip n t).getD t) s

/-- The clips a record refers to: each item's, then the fill's (R110, R115). -/
def BreakRecord.clips (r : BreakRecord) : List Nat :=
  r.items.map (fun i => i.clip) ++ r.fillClip.toList

/-- A record leaves its queue: its holds and items go back, the records behind it move up
(R115). -/
def removeRecord (c : Fin 4) (n : Nat) (s : State) : State :=
  match s.record c n with
  | none => s
  | some r =>
    let s := releaseHolds r.clips s
    let x := s.ch c
    s.setCh c { x with queue := x.queue.filter fun q => q.number != n }

/-! ### As-run records of a break (R132, R151) -/

/-- The spot key of a clip's directory entry. -/
def State.spotKey (s : State) (clip : Nat) : BitVec 32 := (s.entry clip).spotKey

/-- An ITEM record (R151). -/
def itemRow (s : State) (c : Fin 4) (r : BreakRecord) (number clip : Nat) (o : AirOutcome)
    (cause : Cause) (late : Bool) (planned : AC) (squeeze : Option Nat) (aired : Option Aired) :
    AsRunRecord where
  channel := c
  kind := .item
  breakNo := some r.number
  itemNo := some number
  clip := clip
  spotKey := s.spotKey clip
  outcome := o
  cause := cause
  late := late
  planned := some planned
  aired := aired
  squeeze := squeeze

/-- One ITEM record per item with an outcome, cause, late flag and planned start common to all, for
a record that was never planned (R112, R134). -/
def unplannedRows (s : State) (c : Fin 4) (r : BreakRecord) (o : AirOutcome) (cause : Cause)
    (late : Bool) (planned : AC) : List AsRunRecord :=
  (r.items.zipIdx 1).map fun p => itemRow s c r p.2 p.1.clip o cause late planned none none

/-- How an item or the fill of a break ended: outcome, cause and its airing. -/
abbrev Ending := AirOutcome × Cause × Option Aired

/-- One ITEM record per item of a planned break, in item order, with the planned start, squeeze
factor and late flag of R132 and an ending per item. -/
def plannedRows (s : State) (c : Fin 4) (r : BreakRecord) (p : Plan)
    (ending : PlanItem → Ending) : List AsRunRecord :=
  let start := r.start.getD 0
  (r.items.zipIdx 1).filterMap fun q =>
    (p.item? q.2).map fun i =>
      let e := ending i
      itemRow s c r q.2 q.1.clip e.1 e.2.1 p.late (planAC start i.start) i.squeeze e.2.2

/-- A FILL record (R151). -/
def fillRow (s : State) (c : Fin 4) (r : BreakRecord) (p : Plan) (e : Ending) : AsRunRecord where
  channel := c
  kind := .fill
  breakNo := some r.number
  itemNo := none
  clip := r.fillClip.getD 0
  spotKey := s.spotKey (r.fillClip.getD 0)
  outcome := e.1
  cause := e.2.1
  late := p.late
  planned := some (p.fillStart.getD 0)
  aired := e.2.2
  squeeze := none

/-! ### Run record (R133) -/

/-- The parts of a record's run replaced by f of each. -/
def modParts (c : Fin 4) (n : Nat) (f : Part → Part) (s : State) : State :=
  modRecord c n (fun r => { r with run := r.run.map fun u => { u with parts := u.parts.map f } }) s

/-- The parts of a record's run. -/
def BreakRecord.parts (r : BreakRecord) : List Part := match r.run with
  | some u => u.parts
  | none => []

/-- The part of a run with a kind. -/
def partFor (l : List Part) (test : PartKind → Bool) : Option Part := l.find? fun p => test p.kind

/-- The kind is the item with an item number. -/
def PartKind.isItem (number : Nat) : PartKind → Bool
  | .item _ m => m == number
  | .fill => false

/-- The kind is placed item k. -/
def PartKind.isPlacedItem (k : Nat) : PartKind → Bool
  | .item j _ => j == k
  | .fill => false

/-- The kind is the fill. -/
def PartKind.isFill : PartKind → Bool
  | .item _ _ => false
  | .fill => true

/-! ### Priming (R138) -/

/-- The prime request for a part (R138). -/
def primeRequest (s : State) (c : Fin 4) (r : BreakRecord) (p : Plan) (k : PartKind) :
    Option PrimeReq :=
  match k with
  | .item _ number =>
    match r.items[number - 1]?, p.item? number with
    | some it, some i =>
      let target := targetCode it.level (s.entry it.clip).trim
      some {
        clip := it.clip
        step := some i.step
        loop := false
        start := planAC (r.start.getD 0) i.start
        code := if it.fadeIn.isSome then 0 else target
        ramp := match it.fadeIn with
          | some f => .explicit target f.rate f.interval false
          | none => .explicit target 1 0 false }
    | _, _ => none
  | .fill =>
    match r.fillClip, p.fillStart with
    | some clip, some at_ =>
      let x := s.ch c
      some {
        clip := clip
        step := none
        loop := true
        start := at_
        code := 0
        ramp := .toLevel (targetCode x.config.fillLevel (s.entry clip).trim) x.config.openFade }
    | _, _ => none

/-- Prime a voice with the next WAITING part of the break that belongs to it; the part becomes
PRIMED when the voice accepts (R137, R138, R141). -/
def primeNext (c : Fin 4) (n : Nat) (v : Fin 16) (s : State) : State :=
  match s.record c n with
  | none => s
  | some r =>
    match r.plan, r.parts.find? (fun p => p.voice == v && p.state == .waiting) with
    | some p, some part =>
      match primeRequest s c r p part.kind with
      | none => s
      | some q =>
        let a := primeVoice v q s
        if a.1 then
          modParts c n (fun x => if x.kind = part.kind then { x with state := .primed } else x) a.2
        else s
    | _, _ => s

/-! ### Triggers (R111, R129 to R137) -/

/-- The channel is free to take a break (R111). -/
def State.freeForBreak (s : State) (c : Fin 4) : Bool :=
  let x := s.ch c
  x.config.enable && (x.state == .network || x.state == .emergency) && (s.flight c).isNone

/-- The plan items of a record as the planner begins with them (R119, R120). -/
def planItems (s : State) (r : BreakRecord) : List PlanItem :=
  (r.items.zipIdx 1).map fun q =>
    let e := s.entry q.1.clip
    { number := q.2, cls := q.1.cls, stretch := q.1.stretch, loaded := q.1.overlap,
      length := e.length, base := baseStep e.rate, step := baseStep e.rate, dur := 0,
      overlap := 0, start := 0, disp := .placed, squeeze := none }

/-- What became of an accepted trigger (R136). -/
inductive TriggerOutcome where
  | granted | emptyPlan | refused
  deriving DecidableEq, Repr

/-- The record's fill at the trigger: its own, or the channel's when that clip is READY, on which a
hold is then taken (R111). -/
def triggerFill (c : Fin 4) (n : Nat) (s : State) : State :=
  match s.record c n with
  | none => s
  | some r =>
    match r.fillClip, (s.ch c).config.fillClip with
    | none, some f =>
      match holdClip f s with
      | some s => modRecord c n (fun r => { r with fillClip := some f }) s
      | none => s
    | _, _ => s

/-- The empty plan's end of a break (R129). -/
def endEmptyPlan (c : Fin 4) (r : BreakRecord) (p : Plan) (s : State) : State :=
  removeRecord c r.number (asrunWriteAll (plannedRows s c r p fun i =>
    (.dropped, match i.disp with | .dropped cause => cause | .placed => .time, none)) s)

/-- The refused claim's end of a break (R131). -/
def endRefusedClaim (c : Fin 4) (r : BreakRecord) (p : Plan) (s : State) : State :=
  removeRecord c r.number (raiseAlert .breakFailed
    (asrunWriteAll (plannedRows s c r p fun _ => (.notAired, .noVoice, none)) s))

/-- The start of a break whose claim was granted (R137). -/
def startBreak (c : Fin 4) (n : Nat) (p : Plan) (v : Fin 16 × Fin 16) (s : State) : State :=
  let s := modRecord c n (fun r => { r with
    plan := some { p with voices := some v }, run := some (makeRun p v) }) s
  let s := (requestPreroll c s).2
  primeNext c n v.2 (primeNext c n v.1 s)

/-- A trigger accepted on record n of channel c, with S, D and the late flag: fill, PREROLL, plan,
and claim (R111, R119, R129 to R131, R137). -/
def acceptTrigger (c : Fin 4) (n : Nat) (start : AC) (deadline : Option AC) (late : Bool)
    (s : State) : TriggerOutcome × State :=
  let s := modRecord c n (fun r => { r with start := some start, deadline := deadline }) s
  let s := triggerFill c n s
  let s := modRecord c n (fun r => { r with state := .preroll }) s
  match s.record c n with
  | none => (.refused, s)
  | some r =>
    let x := s.ch c
    let p := makePlan {
      start := start, deadline := deadline, late := late, items := planItems s r,
      fill := r.fillClip.isSome, joinFade := x.config.joinFade,
      threshold := x.config.fillThreshold }
    if p.isEmpty then (.emptyPlan, endEmptyPlan c r p s)
    else match claimBreak c s with
      | none => (.refused, endRefusedClaim c r p s)
      | some (a, b, s) => (.granted, startBreak c n p (a, b) s)

/-- A TIME record is due in the frame with AC a (R134). -/
def timeDue (target a : AC) : Bool := acAtOrBefore (target - BitVec.ofNat 32 Config.preroll) a

/-- The lateness of a due TIME record (R134). -/
def lateness (target a : AC) : Nat := (a + BitVec.ofNat 32 Config.preroll - target).toNat

/-- The deadline of a TIME break with lateness l (R135). -/
def timeDeadline (target start : AC) (window l : Nat) : Option AC :=
  if window = 0 then none
  else if window ≤ l then some start
  else some (target + BitVec.ofNat 32 window)

/-- One PENDING TIME record judged in the next frame (R134). -/
def judgeTimeRecord (c : Fin 4) (n : Nat) (s : State) : State :=
  match s.record c n with
  | none => s
  | some r =>
    match r.state, r.trigger with
    | .pending, .time target =>
      let a := s.nextAC
      if timeDue target a then
        let l := lateness target a
        if l > (s.ch c).config.lateGrace then
          removeRecord c n
            (asrunWriteAll (unplannedRows s c r .notAired .missed true target) s)
        else if s.freeForBreak c then
          let start := a + BitVec.ofNat 32 Config.preroll
          (acceptTrigger c n start (timeDeadline target start r.window l) (decide (l > 0)) s).2
        else s
      else s
    | _, _ => s

/-- The TIME records of channel c judged in load order, once in a frame (R134).  DESIGN CHOICE (log
entry 45): after an accepted trigger that ended at once (R129, R131) the channel has no break in
flight, so a later due record may take the trigger in the same judgment. -/
def judgeTime (c : Fin 4) (s : State) : State :=
  if s.forming.timeJudged.contains c then s
  else
    let s := ((s.ch c).queue.map fun r => r.number).foldl (fun t n => judgeTimeRecord c n t) s
    s.setForming { s.forming with timeJudged := c :: s.forming.timeJudged }

/-- The expiry of record n is reached in the next frame (R112). -/
def State.expiryDue (s : State) (c : Fin 4) (n : Nat) : Bool :=
  match s.record c n with
  | none => false
  | some r => r.state == .pending && match r.expiry with
    | some m => acAtOrBefore m s.nextAC
    | none => false

/-- A PENDING record whose expiry is reached writes its MISSED records and is removed (R112). -/
def expireRecord (c : Fin 4) (n : Nat) (s : State) : State :=
  if s.expiryDue c n then
    match s.record c n with
    | none => s
    | some r => removeRecord c n
        (asrunWriteAll (unplannedRows s c r .notAired .missed false (r.expiry.getD 0)) s)
  else s

/-- Every record of channel c whose expiry is reached (R112).  DESIGN CHOICE (log entry 59): in load order,
where several expire in one frame. -/
def expireAll (c : Fin 4) (s : State) : State :=
  ((s.ch c).queue.map fun r => r.number).foldl (fun t n => expireRecord c n t) s

/-- The record is a PENDING MANUAL one. -/
def BreakRecord.firable (r : BreakRecord) : Bool := r.state == .pending && r.trigger == .manual

/-- A fire request accepted on record n: S is 64 frames after the last frame formed (R136). -/
def fireRecord (c : Fin 4) (r : BreakRecord) (s : State) : TriggerOutcome × State :=
  let start := s.clock.ac + BitVec.ofNat 32 Config.preroll
  let deadline := if r.window = 0 then none else some (start + BitVec.ofNat 32 r.window)
  acceptTrigger c r.number start deadline false s

/-- A fire request from a GPI line: checks 2 and 5 of R136, a failure counted. -/
def gpiFire (c : Fin 4) (s : State) : State :=
  match s.freeForBreak c, (s.ch c).queue.find? BreakRecord.firable with
  | true, some r => (fireRecord c r s).2
  | _, _ =>
    let x := s.ch c
    s.setCh c { x with fireRefusals := bump x.fireRefusals }

/-! ### The open (R139) -/

/-- The open is due: the break is in PREROLL and the next frame is at S (R139). -/
def State.openDue (s : State) (c : Fin 4) : Bool :=
  match s.flight c with
  | none => false
  | some r => r.state == .preroll && r.start == some s.nextAC

/-- The open request with the record's network level; the record enters ON_AIR, and the silence
monitor is told of a takeover (R139, R160). -/
def openBreak (c : Fin 4) (s : State) : State :=
  if s.openDue c then
    match s.flight c with
    | none => s
    | some r =>
      let o := requestOpen c r.netLevel s
      let s := modRecord c r.number (fun r => { r with state := .onAir }) o.2
      if o.1 then takeOver c s else s
  else s

/-- Every break whose S the next frame is opens (R139).  DESIGN CHOICE (log entry 54): in ascending channel
number. -/
def openDueBreaks (s : State) : State := forChannels openBreak s

/-! ### The join (R142 to R144) -/

/-- How an item of a joined break is recorded (R144). -/
def joinEnding (u : Run) (i : PlanItem) : Ending :=
  match i.disp with
  | .dropped cause => (.dropped, cause, none)
  | .placed =>
    match partFor u.parts (PartKind.isItem i.number) with
    | none => (.dropped, u.cause, none)
    | some p =>
      if p.state = .finished then
        let aired := match p.startAC, p.endAC with
          | some a, some b => some (airedBetween a b)
          | _, _ => none
        if p.finish = some .ended ∨ p.fade ≠ .join then (.full, .none, aired)
        else (.cut, u.cause, aired)
      else (.dropped, u.cause, none)

/-- How the fill of a joined break is recorded: nothing unless it FINISHED (R144). -/
def fillEnding (u : Run) : Option Ending :=
  match partFor u.parts PartKind.isFill with
  | none => none
  | some p =>
    if p.state = .finished then
      let aired := match p.startAC, p.endAC with
        | some a, some b => some (airedBetween a b)
        | _, _ => none
      if u.cause = .time then some (.full, .none, aired) else some (.cut, u.cause, aired)
    else none

/-- The rows of a completed break: one ITEM record per item, then a FILL record (R144). -/
def joinRows (s : State) (c : Fin 4) (r : BreakRecord) : List AsRunRecord :=
  match r.plan, r.run with
  | some p, some u =>
    plannedRows s c r p (joinEnding u) ++ ((fillEnding u).map (fillRow s c r p)).toList
  | _, _ => []

/-- The break's two voices. -/
def BreakRecord.voices (r : BreakRecord) : List (Fin 16) :=
  match r.plan with
  | some p => match p.voices with
    | some v => [v.1, v.2]
    | none => []
  | none => []

/-- Release voices in order. -/
def releaseVoices (l : List (Fin 16)) (s : State) : State := l.foldl (fun t v => releaseVoice v t) s

/-- The completion of the break when the mixer reports the return to NETWORK (R144). -/
def completeBreak (c : Fin 4) (s : State) : State :=
  match s.flight c with
  | none => s
  | some r =>
    removeRecord c r.number (releaseVoices r.voices (asrunWriteAll (joinRows s c r) s))

/-- The join completes when the gain stands at 3840 with the break clear mark set (R71).  DESIGN CHOICE
(log entry 41): the mark stays set in NETWORK, where nothing reads it, until the next join request or
a reset clears it. -/
def finishJoin (c : Fin 4) (s : State) : State :=
  if (s.ch c).joinDone then completeBreak c (setChannelState c .network s) else s

/-- A break clear request (R71). -/
def requestBreakClear (c : Fin 4) (s : State) : State :=
  let x := s.ch c
  if x.state = .joining then finishJoin c (s.setCh c { x with breakClear := true }) else s

/-- No part is PRIMED or SOUNDING. -/
def BreakRecord.quiet (r : BreakRecord) : Bool :=
  !r.parts.any fun p => p.state == .primed || p.state == .sounding

/-- While JOINING with no part PRIMED or SOUNDING, the break clear request is sent (R143). -/
def checkBreakClear (c : Fin 4) (s : State) : State :=
  match s.flight c with
  | none => s
  | some r => if r.state = .joining ∧ r.quiet = true then requestBreakClear c s else s

/-- The part sounds, or is primed, on the voice. -/
def Part.liveOn (p : Part) (v : Fin 16) : Bool :=
  p.voice == v && (p.state == .primed || p.state == .sounding)

/-- The parts of the break live on the voice have the join's fade in force (R142). -/
def markJoin (c : Fin 4) (n : Nat) (v : Fin 16) (s : State) : State :=
  modParts c n (fun p => if p.liveOn v then { p with fade := .join } else p) s

/-- The join's requests to one voice of the break, with no start among them: the fade, and a cancel for
a PRIMED voice that ignored it (R142). -/
def stopForJoin (c : Fin 4) (n : Nat) (v : Fin 16) (s : State) : State :=
  let f := fadeToZero v (s.ch c).config.joinFade s
  if f.1 then markJoin c n v f.2
  else if (s.voice v).state = .primed then
    modParts c n (fun p => if p.voice = v ∧ p.state = .primed then { p with state := .notStarted } else p)
      (cancelVoice v s).2
  else s

/-- The cancel of a voice that ignored the fade while PRIMED and has started since (R49): its part sees
STARTED and FADED while JOINING. -/
def cancelStarted (c : Fin 4) (n : Nat) (v : Fin 16) (s : State) : State :=
  let f := cancelVoice v s
  if f.1 then markJoin c n v f.2 else s

/-- The join's requests to a voice whose start in the frame in formation falls among them (R49, R142).  The
voice starts after every break whose S the frame is has opened, as wherever voices are handled, so that no
voice of a break in PREROLL starts before its open (R139, R168). -/
def joinAround (o : Config.StartOrder) (c : Fin 4) (n : Nat) (v : Fin 16) (s : State) : State :=
  match o with
  | .never => stopForJoin c n v s
  | .first => stopForJoin c n v (startThrough v (openDueBreaks s))
  | .outputFirst => stopForJoin c n v (handleThrough v.val (openDueBreaks s))
  | .between => cancelStarted c n v (startThrough v (openDueBreaks s))
  | .outputBetween => cancelStarted c n v (handleThrough v.val (openDueBreaks s))

/-- The frame in formation is the frame at S of record n (R147). -/
def State.opensNow (s : State) (c : Fin 4) (n : Nat) : Bool :=
  match s.record c n with
  | some r => r.start == some s.nextAC
  | none => false

/-- The order taken: the one drawn, but that a voice due in the frame at S, whose open is already taken,
does start, so that placed item 1 is recorded CUT (R147; DEDUCED, log entry 47). -/
def State.joinOrder (s : State) (c : Fin 4) (n : Nat) (drawn : Config.StartOrder) : Config.StartOrder :=
  if drawn = .never ∧ s.opensNow c n = true then .outputFirst else drawn

/-- The join at one voice of the break (R142).  Where the voice starts in the frame in formation, the order
of its start and the join's requests is a free value (R49; DESIGN CHOICE, log entry 48). -/
def joinVoice (c : Fin 4) (n : Nat) (v : Fin 16) (s : State) : State :=
  if s.startAhead v then
    joinAround (s.joinOrder c n (Config.startOrder s.cmd.draws)) c n v (drawFree s)
  else stopForJoin c n v s

/-- A WAITING part becomes NOT_STARTED at the join (R142). -/
def Part.unstarted (p : Part) : Part :=
  if p.state = .waiting then { p with state := .notStarted } else p

/-- The join begins (R142), and break clear is sent at once when no part is left (R143).  DESIGN CHOICE
(log entry 40): a FADED that the join raises (J_j = 0, or a cancel) joins the queue at once, also where a
frame is in formation and events of voices of a lower number in it are still to come (R60 asks for both
orders). -/
def joinBreak (c : Fin 4) (s : State) : State :=
  match s.flight c with
  | none => s
  | some r =>
    if r.state ≠ .onAir then s
    else
      let n := r.number
      let s := modRecord c n (fun r => { r with state := .joining }) s
      let s := requestJoin c s
      let s := r.voices.foldl (fun t v => joinVoice c n v t) s
      checkBreakClear c (modParts c n Part.unstarted s)

/-- The join is due: the break is ON_AIR and the frame at X has been formed (R142). -/
def State.joinDue (s : State) (c : Fin 4) : Bool :=
  match s.flight c with
  | none => false
  | some r => r.state == .onAir && !s.clock.noneFormed && match r.plan with
    | some p => p.ret == s.clock.ac
    | none => false

/-! ### Voice events of a break (R140, R141, R143) -/

/-- The fade-out of the item before placed item k, when placed item k has started (R140). -/
def fadePredecessor (c : Fin 4) (n k : Nat) (s : State) : State :=
  match s.record c n with
  | none => s
  | some r =>
    match partFor r.parts (PartKind.isPlacedItem (k - 1)) with
    | some p =>
      if p.state = .sounding ∧ p.fade = .none then
        match p.kind with
        | .item _ number => match r.items[number - 1]? with
          | some it => match it.fadeOut with
            | some f =>
              modParts c n (fun x => if x.kind = p.kind then { x with fade := .own } else x)
                (rampVoice p.voice 0 f.rate f.interval true s).2
            | none => s
          | none => s
        | .fill => s
      else s
    | none => s

/-- The scheduler takes a STARTED event (R140). -/
def takeStarted (c : Fin 4) (r : BreakRecord) (v : Fin 16) (at_ : AC) (s : State) : State :=
  match r.parts.find? (fun p => p.voice == v && p.state == .primed) with
  | none => s
  | some p =>
    let fade := if r.state = .joining then FadeInForce.join else p.fade
    let s := modParts c r.number (fun x => if x.kind = p.kind then
      { x with state := .sounding, startAC := some at_, fade := fade } else x) s
    match r.state, p.kind with
    | .onAir, .item k _ => if k ≥ 2 then fadePredecessor c r.number k s else s
    | _, _ => s

/-- The scheduler takes a finishing event (R141, R143). -/
def takeFinished (c : Fin 4) (r : BreakRecord) (v : Fin 16) (k : EventKind) (at_ : AC) (s : State) :
    State :=
  match r.parts.find? (fun p => p.voice == v && p.state == .sounding) with
  | none => s
  | some p =>
    let s := modParts c r.number (fun x => if x.kind = p.kind then
      { x with state := .finished, endAC := some at_, finish := some k } else x) s
    if r.state = .joining then checkBreakClear c s
    else if r.state = .onAir then primeNext c r.number v s
    else s

/-- The scheduler takes an event of one of its voices (R140, R141, R143). -/
def takeBreakEvent (c : Fin 4) (e : VoiceEvent) (s : State) : State :=
  match s.flight c with
  | none => s
  | some r =>
    if e.kind = .started then takeStarted c r e.voice (e.ac + e.shift) s
    else takeFinished c r e.voice e.kind (e.ac + e.shift) s

/-! ### Ending early (R145 to R147) -/

/-- A break in PREROLL withdrawn with a cause (R147). -/
def withdrawBreak (c : Fin 4) (cause : Cause) (s : State) : State :=
  match s.flight c with
  | none => s
  | some r =>
    let rows := match r.plan with
      | some p => plannedRows s c r p fun _ => (.notAired, cause, none)
      | none => []
    let s := asrunWriteAll rows s
    let s := r.voices.foldl (fun t v =>
      if (t.voice v).state = .primed then (cancelVoice v t).2 else t) s
    let s := releaseVoices r.voices s
    removeRecord c r.number (requestWithdraw c s)

/-- X moved, with the return cause (R145, R146). -/
def moveReturn (c : Fin 4) (n : Nat) (x : AC) (cause : Cause) (s : State) : State :=
  modRecord c n (fun r => { r with
    plan := r.plan.map fun p => { p with ret := x }
    run := r.run.map fun u => { u with cause := cause } }) s

/-- The return point of a record, once planned. -/
def BreakRecord.ret (r : BreakRecord) : Option AC := r.plan.map fun p => p.ret

/-- A CLOSE taken on the break in flight with close moment m (R145).  DESIGN CHOICE (log entry 51): in the
frame at S, with the open already taken, R145 is followed too, so a close moment after the last frame
formed and before X waits for its frame and does not join at once as R147 says. -/
def closeBreak (c : Fin 4) (m : AC) (s : State) : State :=
  match s.flight c with
  | none => s
  | some r =>
    match r.state, r.ret with
    | .preroll, _ => withdrawBreak c .close s
    | .onAir, some x =>
      if acBefore m x then
        if acBefore s.clock.ac m then moveReturn c r.number m .close s
        else joinBreak c (moveReturn c r.number s.clock.ac .close s)
      else s
    | _, _ => s

/-- What an abort answers: no break in flight, withdrawn, or joining with X (R146). -/
inductive AbortAnswer where
  | noFlight
  | withdrawn (n : Nat)
  | joining (n : Nat) (x : AC)
  deriving DecidableEq, Repr

/-- An abort of the break in flight (R146). -/
def abortBreak (c : Fin 4) (s : State) : AbortAnswer × State :=
  match s.flight c with
  | none => (.noFlight, s)
  | some r =>
    match r.state with
    | .preroll => (.withdrawn r.number, withdrawBreak c .abort s)
    | .onAir =>
      (.joining r.number s.clock.ac, joinBreak c (moveReturn c r.number s.clock.ac .abort s))
    | .joining | .loading | .pending => (.joining r.number (r.ret.getD 0), s)

/-- The close fits the break in flight: key 0, or a CUE trigger with the same key (R96). -/
def closeFits (key : Nat) (r : BreakRecord) : Bool :=
  key == 0 || match r.trigger with
    | .cue k => k == key
    | .time _ | .manual => false

/-! ### Reset of a break (R83, R150) -/

/-- The airing of a part at a reset, when it has started (R150). -/
def resetAired (s : State) (p : Part) : Option Aired :=
  let start := match p.state with
    | .sounding | .finished => p.startAC
    | .primed => s.airStart p.voice none
    | .waiting | .notStarted => none
  start.map fun a => airedBetween a (p.endAC.getD (s.airEnd p.voice))

/-- How an item or the fill is recorded at a reset: CUT when it started, DROPPED otherwise (R150). -/
def resetEnding (s : State) (p : Option Part) : Ending :=
  match p with
  | none => (.dropped, .reset, none)
  | some p => match resetAired s p with
    | some a => (.cut, .reset, some a)
    | none => (.dropped, .reset, none)

/-- The rows of the break in flight at a reset (R83, R150). -/
def resetBreakRows (c : Fin 4) (s : State) : List AsRunRecord :=
  match s.flight c with
  | none => []
  | some r =>
    match r.plan with
    | none => []
    | some p =>
      plannedRows s c r p (fun i => resetEnding s (partFor r.parts (PartKind.isItem i.number)))
        ++ match partFor r.parts PartKind.isFill with
          | none => []
          | some q => match resetAired s q with
            | some a => [fillRow s c r p (.cut, .reset, some a)]
            | none => []

end Sys2Proof.Machine
end

