-- ==== Sys2Proof/Machine/Cart.lean ====
section
/-! DEFINITION. The cart logic (section 4.6), delivery of voice events to their owners (R61), and
the reset of a channel (R83, R84). -/

namespace Sys2Proof.Machine

/-! ### Carts (R80 to R82) -/

/-- A cart refused at step 3 or 4 of R80: counted and raised. -/
def refuseCart (c : Fin 4) (s : State) : State :=
  let x := s.ch c
  raiseAlert .cartRefused (s.setCh c { x with cartRefusals := bump x.cartRefusals })

/-- A cart request with its fields in range (R80 steps 3 and 4, R81): the voice and start frame, or
the flag of the refusal. -/
def requestCart (c : Fin 4) (clip level : Nat) (s : State) : Except ErrFlag (Fin 16 × AC) × State :=
  if (s.ch c).state = .halted then (.error .state, refuseCart c s)
  else match claimOne c .cart clip s with
    | .error .noVoice => (.error .noVoice, refuseCart c s)
    | .error .notReady => (.error .notFound, refuseCart c s)
    | .ok (v, s) =>
      let e := s.entry clip
      let target := targetCode (min level Config.maxCode) e.trim
      let start := nextBoundary s.clock.ac
      let x := s.ch c
      let s := s.setCh c { x with carts := x.carts ++ [⟨v, clip, e.spotKey, target, none⟩] }
      (.ok (v, start), (primeVoice v {
        clip := clip, step := none, loop := false, start := start, code := target,
        ramp := .explicit target 1 0 false } s).2)

/-- A CART as-run record (R82, R83). -/
def cartRow (c : Fin 4) (r : CartRecord) (o : AirOutcome) (cause : Cause) (aired : Option Aired) :
    AsRunRecord where
  channel := c
  kind := .cart
  breakNo := none
  itemNo := none
  clip := r.clip
  spotKey := r.spotKey
  outcome := o
  cause := cause
  late := false
  planned := none
  aired := aired
  squeeze := none

/-- The cart logic takes an event of one of its voices (R82). -/
def takeCartEvent (c : Fin 4) (e : VoiceEvent) (s : State) : State :=
  let x := s.ch c
  let at_ := e.ac + e.shift
  if e.kind = .started then
    s.setCh c { x with carts := x.carts.map fun r =>
      if r.voice = e.voice then { r with startAC := some at_ } else r }
  else match x.carts.find? (fun r => r.voice == e.voice) with
    | none => s
    | some r =>
      let s := asrunWrite
        (cartRow c r .full .none (some (airedBetween (r.startAC.getD at_) at_))) s
      let s := releaseVoice e.voice s
      let x := s.ch c
      s.setCh c { x with carts := x.carts.filter fun r => r.voice != e.voice }

/-- The records of the channel's carts at a reset, in ascending voice number (R83). -/
def resetCartRows (c : Fin 4) (s : State) : List AsRunRecord :=
  allVoices.filterMap fun v =>
    ((s.ch c).carts.find? fun r => r.voice == v).map fun r =>
      match s.airStart v r.startAC with
      | some a => cartRow c r .cut .reset (some (airedBetween a (s.airEnd v)))
      | none => cartRow c r .notAired .reset none

/-! ### Event delivery (R61) -/

/-- The oldest event of the voice event queue is taken by the logic that owns its voice (R61). -/
def deliverEvent (s : State) : State :=
  match s.events with
  | [] => s
  | e :: rest =>
    let s := s.setEvents rest
    match (s.voice e.voice).owner with
    | none => s
    | some ⟨c, .brk⟩ => takeBreakEvent c e s
    | some ⟨c, .cart⟩ => takeCartEvent c e s
    | some ⟨c, .emergency⟩ => takeEmergencyEvent c e s

/-- Deliver up to n events, oldest first. -/
def deliverEvents : Nat → State → State
  | 0, s => s
  | n + 1, s => deliverEvents n (deliverEvent s)

/-- Every event now in the queue, oldest first (R61). -/
def deliverAll (s : State) : State := deliverEvents s.events.length s

/-! ### Channel reset (R83, R84) -/

/-- The records a reset of channel c writes, in the order of R83. -/
def resetRows (c : Fin 4) (s : State) : List AsRunRecord :=
  resetBreakRows c s ++ resetCartRows c s ++ resetEmergencyRows c s

/-- Every break record of the channel removed, holds and items returned (R84, R116). -/
def removeAllRecords (c : Fin 4) (s : State) : State :=
  ((s.ch c).queue.map fun r => r.number).foldl (fun t n => removeRecord c n t) s

/-- The channel at rest (R84): gain at unity, duck 0, flags and marks cleared, no cart record, the
monitor's counts, phase and peaks cleared. -/
def restChannel (x : Channel) : Channel :=
  { x with
    origin := none
    returning := false
    breakClear := false
    emClear := false
    gain := Config.unityCode
    gainTarget := Config.unityCode
    gainRate := 1
    duck := 0
    carts := []
    queue := []
    monitor := { x.monitor with
      recoveryCount := 0, phase := .none, emRecord := none, peaks := none } }

/-- CHANNEL_RESET's work on channel c (R83, R84).  DESIGN CHOICE (log entry 42): an output that a voice
has already given in the frame in formation stays (R45, R83) and is mixed with the gain of 3840 and
the duck of 0 that the reset leaves. -/
def resetChannel (c : Fin 4) (s : State) : State :=
  let s := asrunWriteAll (resetRows c s) s
  let s := releaseChannelVoices c (removeAllRecords c s)
  let s := clearSilence c (s.setCh c (restChannel (s.ch c)))
  setChannelState c (if (s.ch c).config.enable then .network else .halted) s

end Sys2Proof.Machine
end

