-- ==== Sys2Proof/Machine/Contacts.lean ====
section
/-! DEFINITION. The contact unit (sections 9.3 and 9.4): sampling, edges and their actions. -/

namespace Sys2Proof.Machine

/-- A rising edge acts by the line's function (R163). -/
def actOnEdge (fn : GpiFunction) (s : State) : State :=
  match fn with
  | .none | .micLive _ => s
  | .brk c => gpiFire c s
  | .abort c => (abortBreak c s).2
  | .emergency c => forceFill c s
  | .cart c clip level => (requestCart c clip level s).2

/-- One sample of line g (R162): the fifth consecutive differing sample changes the stable level,
which is reported; a rising edge then acts (R163). -/
def sampleLine (g : Fin 8) (level : Bool) (s : State) : State :=
  let l := s.gpiLine g
  if level = l.stable then s.setGpiLine g { l with run := 0 }
  else if l.run + 1 < 5 then s.setGpiLine g { l with run := l.run + 1 }
  else
    let s := raiseAlert (.gpi g) (s.setGpiLine g { l with stable := level, run := 0 })
    if level then actOnEdge l.fn s else s

/-- The sample of every line in a boundary frame, in ascending line number (R162). -/
def sampleLines (gpi : Byte) (s : State) : State :=
  allGpi.foldl (fun t g => sampleLine g (gpi.getLsbD g.val) t) s

end Sys2Proof.Machine
end

