-- ==== Sys2Proof/Machine/Cue.lean ====
section
/-! DEFINITION. The cue decoder (sections 5.3 and 5.4). -/

namespace Sys2Proof.Machine

/-- A counter of the decoder changed. -/
def modCues (f : CueCounters → CueCounters) (s : State) : State := s.setCues (f s.cues)

/-- The cue is malformed (R93). -/
def malformedCue (s : State) : State :=
  modCues (fun q => { q with malformed := bump q.malformed }) s

/-- An unmatched channel: counted and raised (R95, R96). -/
def unmatchedCue (s : State) : State :=
  raiseAlert .cueUnmatched (modCues (fun q => { q with unmatched := bump q.unmatched }) s)

/-- A refused match: counted and raised (R95). -/
def refusedCue (s : State) : State :=
  raiseAlert .cueRefused (modCues (fun q => { q with refused := bump q.refused }) s)

/-- An AC moved forward by a number of frames. -/
def plusFrames (a : AC) (n : Nat) : AC := a + BitVec.ofNat 32 n

/-- S of an OPEN cue (R94). -/
def openStart (ref : AC) (offset : Nat) : AC := plusFrames ref (max offset Config.preroll)

/-- D of an OPEN cue for a record with its own window (R94). -/
def openDeadline (ref : AC) (offset cueWindow recWindow : Nat) : Option AC :=
  let w := if cueWindow > 0 then cueWindow else recWindow
  if w = 0 then none
  else if offset + w ≤ max offset Config.preroll then some (openStart ref offset)
  else some (plusFrames ref (offset + w))

/-- The record answers an OPEN cue with this key (R95). -/
def BreakRecord.answersCue (key : Nat) (r : BreakRecord) : Bool :=
  r.state == .pending && r.trigger == .cue key

/-- The visit of an OPEN cue to one channel (R95). -/
def openChannel (ref : AC) (key offset window : Nat) (c : Fin 4) (s : State) : State :=
  if (s.ch c).config.enable = false then s
  else match (s.ch c).queue.find? (BreakRecord.answersCue key) with
    | none => unmatchedCue s
    | some r =>
      if s.freeForBreak c then
        (acceptTrigger c r.number (openStart ref offset)
          (openDeadline ref offset window r.window) false s).2
      else refusedCue s

/-- The visit of a CLOSE cue to one channel (R96). -/
def closeChannel (m : AC) (key : Nat) (c : Fin 4) (s : State) : State :=
  if (s.ch c).config.enable = false then s
  else match s.flight c with
    | none => unmatchedCue s
    | some r => if closeFits key r then closeBreak c m s else unmatchedCue s

/-- The channels a mask selects, in ascending order. -/
def maskChannels (mask : Nat) : List (Fin 4) := allChannels.filter fun c => mask.testBit c.val

/-- What a cue does on a channel it visits. -/
abbrev Visit := Fin 4 → State → State

/-- Visit channels in order. -/
def visitAll (f : Visit) (l : List (Fin 4)) (s : State) : State := l.foldl (fun t c => f c t) s

/-- The visits of an OPEN cue; none when it is malformed (R93 to R95, R197). -/
def openVisits (p : List Byte) (ref : AC) : Option (List (Fin 4) × Visit) :=
  let mask := field p 1 1
  let key := field p 2 4
  let offset := field p 6 4
  let window := field p 10 4
  if p.length ≠ 14 ∨ mask > 15 ∨ offset > 480000 ∨ window > 14400000 then none
  else some (maskChannels mask, openChannel ref key offset window)

/-- The visits of a CLOSE cue; none when it is malformed (R93, R96, R197).  A window field, when
sent, is not read. -/
def closeVisits (p : List Byte) (ref : AC) : Option (List (Fin 4) × Visit) :=
  let mask := field p 1 1
  let key := field p 2 4
  let offset := field p 6 4
  if (p.length ≠ 10 ∧ p.length ≠ 14) ∨ mask > 15 ∨ offset > 480000 then none
  else some (maskChannels mask, closeChannel (plusFrames ref offset) key)

/-- A cue that visits channels, carried out whole. -/
def visitOrMalformed (v : Option (List (Fin 4) × Visit)) (s : State) : State :=
  match v with
  | none => malformedCue s
  | some (l, f) => visitAll f l s

/-- The OPEN cue (R94, R95, R197). -/
def decodeOpen (p : List Byte) (ref : AC) (s : State) : State :=
  visitOrMalformed (openVisits p ref) s

/-- The CLOSE cue (R96, R197). -/
def decodeClose (p : List Byte) (ref : AC) (s : State) : State :=
  visitOrMalformed (closeVisits p ref) s

/-- The RECORD_START cue (R97, R197). -/
def decodeRecordStart (p : List Byte) (ref : AC) (s : State) : State :=
  let key := BitVec.ofNat 32 (field p 2 4)
  let offset := field p 6 4
  if p.length ≠ 10 ∨ offset > 480000 then malformedCue s
  else match storeRecordStart key (plusFrames ref offset) ref s with
    | (.taken, s) => s
    | (.busy, s) => modCues (fun q => { q with recordBusy := bump q.recordBusy }) s
    | (.unmatched, s) =>
      modCues (fun q => { q with recordUnmatched := bump q.recordUnmatched }) s

/-- The RECORD_STOP cue (R98, R197). -/
def decodeRecordStop (p : List Byte) (ref : AC) (s : State) : State :=
  let key := BitVec.ofNat 32 (field p 2 4)
  let offset := field p 6 4
  if p.length ≠ 10 ∨ offset > 480000 then malformedCue s
  else match storeRecordStop key (plusFrames ref offset) s with
    | (.unmatched, s) =>
      modCues (fun q => { q with recordUnmatched := bump q.recordUnmatched }) s
    | (_, s) => s

/-- The TIME_MARK cue (R99, R197). -/
def decodeTimeMark (p : List Byte) (ref : AC) (s : State) : State :=
  let seconds := field p 2 4
  let frame := field p 10 2
  if p.length ≠ 12 ∨ seconds > 86399 ∨ frame > 47999 then malformedCue s
  else s.setClock { s.clock with mark := ⟨true, ref, seconds, frame⟩ }

/-- A cue of none of the five kinds is unknown; a payload of length 0 has no kind and is malformed
(R93, R197). -/
def decodeUnknown (p : List Byte) (s : State) : State :=
  if p.isEmpty then malformedCue s
  else modCues (fun q => { q with unknown := bump q.unknown }) s

/-- The cue kinds of R197; `unknown` for a payload with none of the five. -/
inductive CueKind where
  | openCue | closeCue | recordStart | recordStop | timeMark | unknown
  deriving DecidableEq, Repr

/-- The kind of a cue payload (R197). -/
def cueKind (p : List Byte) : CueKind :=
  match p.head? with
  | some 0x01#8 => .openCue
  | some 0x02#8 => .closeCue
  | some 0x03#8 => .recordStart
  | some 0x04#8 => .recordStop
  | some 0x05#8 => .timeMark
  | _ => .unknown

/-- A cue packet is counted (R93). -/
def countCue (s : State) : State := modCues (fun q => { q with cue := bump q.cue }) s

/-- The oldest routed packet leaves the lane parser. -/
def popRouted (s : State) : State := s.setCmd { s.cmd with inbox := s.cmd.inbox.tail }

/-- The visits of a routed packet that is a well-formed OPEN or CLOSE cue (R95, R96). -/
def Routed.visits (r : Routed) : Option (List (Fin 4) × Visit) :=
  match r.route, cueKind r.payload with
  | .cue, .openCue => openVisits r.payload r.ref
  | .cue, .closeCue => closeVisits r.payload r.ref
  | _, _ => none

/-- The visits of the cue whose decoding has begun: that of the oldest routed packet, once it has
visited a channel (R101). -/
def State.cueBegun (s : State) (visited : Nat) : Option (List (Fin 4) × Visit) :=
  (s.cmd.inbox.head?.bind Routed.visits).filter fun _ => visited != 0

/-- The decoder takes a cue packet: it is counted, and acted on by its kind (R93). -/
def takeCue (r : Routed) (s : State) : State :=
  let s := countCue s
  match cueKind r.payload with
  | .openCue => decodeOpen r.payload r.ref s
  | .closeCue => decodeClose r.payload r.ref s
  | .recordStart => decodeRecordStart r.payload r.ref s
  | .recordStop => decodeRecordStop r.payload r.ref s
  | .timeMark => decodeTimeMark r.payload r.ref s
  | .unknown => decodeUnknown r.payload s

end Sys2Proof.Machine
end

