-- ==== Sys2Proof/Machine/Reply.lean ====
section
/-! DEFINITION. Packets the part sends (R196), reply building (R183, R184) and immediate reports
(R185). -/

namespace Sys2Proof.Machine

/-- The running sums of R11 after one more byte. -/
def checkStep (ab : Nat × Nat) (b : Byte) : Nat × Nat :=
  let a := (ab.1 + b.toNat) % 255
  (a, (ab.2 + a) % 255)

/-- The sums over a run of bytes, from KIND through the last payload byte (R11). -/
def checkSums (l : List Byte) : Nat × Nat := l.foldl checkStep (0, 0)

/-- A packet's bytes on the lane (R196). -/
def packetBytes (p : Packet) : List Byte :=
  let covered := [p.kind, p.dest, p.src, BitVec.ofNat 8 p.payload.length] ++ p.payload
  let ab := checkSums covered
  [0xC3] ++ covered ++ [BitVec.ofNat 8 ab.1, BitVec.ofNat 8 ab.2]

/-- The ALERT packet (R191, R196). -/
def alertPacket (r : ReadyAlert) : Packet where
  kind := 0x40
  dest := r.dest
  src := r.src
  payload := toBytes r.number 1 ++ toBytes r.changed.toNat 4 ++ toBytes r.snapshot.toNat 4
    ++ toBytes r.lockCount 1 ++ toBytes r.ac.toNat 4

/-- The 8-byte reply header (R184, R196). -/
def replyHeader (code tag : Nat) (r : Reply) : List Byte :=
  toBytes code 1 ++ toBytes r.status 1 ++ toBytes tag 2 ++ toBytes r.errorSet 2
    ++ toBytes r.data.length 2

/-- Cut a list into pieces of k bytes; the fuel is at least the number of pieces. -/
def pieces (k : Nat) : Nat → List Byte → List (List Byte)
  | 0, _ => []
  | n + 1, l => if l.isEmpty then [] else l.take k :: pieces k n (l.drop k)

/-- The packets of a reply, in order: a REPLY with up to 192 data bytes, then REPLY-MOREs of up to
198 (R184). -/
def replyPackets (dest src : Byte) (code tag : Nat) (r : Reply) : List Packet :=
  { kind := 0x30, dest := dest, src := src,
    payload := replyHeader code tag r ++ r.data.take 192 }
    :: (pieces 198 r.data.length (r.data.drop 192)).map fun d =>
      { kind := 0x31, dest := dest, src := src, payload := toBytes tag 2 ++ d }

/-- Place a command's reply in the reply build area, when it is made (R183, R184). -/
def answer (cmd : Command) (always : Bool) (r : Reply) (s : State) : State :=
  if always || r.made cmd.header.ack then
    s.setCmd { s.cmd with
      build := replyPackets cmd.src s.lane.unitAddr cmd.header.code cmd.header.tag r }
  else s

/-- An immediate report (R185): one REPLY packet with one flag, dropped and counted at a full
reply queue. -/
def immediateReport (dest : Byte) (code tag : Nat) (f : ErrFlag) (s : State) : State :=
  if s.cmd.replies.length < Config.replyQueue then
    s.setCmd { s.cmd with
      replies := s.cmd.replies ++ replyPackets dest s.lane.unitAddr code tag (.refused f) }
  else s.setCmd { s.cmd with reportDrops := bump s.cmd.reportDrops }

/-- The oldest packet of the reply build area moves into the reply queue when there is room
(R184). -/
def queueReply (s : State) : State :=
  match s.cmd.build with
  | [] => s
  | p :: rest =>
    if s.cmd.replies.length < Config.replyQueue then
      s.setCmd { s.cmd with build := rest, replies := s.cmd.replies ++ [p] }
    else s

/-- Every packet of the build area that finds room, oldest first (R184). -/
def queueReplies (s : State) : State :=
  let room := Config.replyQueue - s.cmd.replies.length
  s.setCmd { s.cmd with
    build := s.cmd.build.drop room
    replies := s.cmd.replies ++ s.cmd.build.take room }

/-- The data limit of a command: MAXREPLY clamped to 16..4096, less 8 (R177). -/
def dataLimit (h : CmdHeader) : Nat := clampNat 16 4096 h.maxReply - 8

end Sys2Proof.Machine
end

