-- ==== Sys2Proof/Machine/Arrival.lean ====
section
/-! DEFINITION. The command unit's arrivals (section 11.1): COMMAND and COMMAND-MORE packets, the
assembly and its deadline, the command queue, and the taking of routed packets. -/

namespace Sys2Proof.Machine

/-- The 8-byte command header at the front of a COMMAND payload; a byte the payload lacks counts as
0 (R177, R185, R196). -/
def parseHeader (p : List Byte) : CmdHeader where
  code := byteAt p 0
  ack := (p.getD 1 0).getLsbD 0
  peek := (p.getD 1 0).getLsbD 1
  tag := byteAt p 2 * 256 + byteAt p 3
  maxReply := byteAt p 4 * 256 + byteAt p 5
  total := byteAt p 6 * 256 + byteAt p 7

/-- The tag at the front of a COMMAND-MORE payload, 0 when it is shorter than 2 bytes (R185). -/
def moreTag (p : List Byte) : Nat := if p.length < 2 then 0 else field p 0 2

/-- The body bytes a COMMAND payload carries. -/
def commandBody (p : List Byte) : List Byte := p.drop 8

/-- The assembly buffer closed. -/
def closeAssembly (s : State) : State := s.setCmd { s.cmd with assembly := none }

/-- A complete command offered to the command queue (R181). -/
def offerCommand (src : Byte) (h : CmdHeader) (body : List Byte) (s : State) : State :=
  if s.cmd.queue.length < Config.commandQueue then
    s.setCmd { s.cmd with queue := s.cmd.queue ++ [⟨src, h, body⟩] }
  else immediateReport src h.code h.tag .busy s

/-- A COMMAND packet with no assembly open (R178). -/
def takeFirst (r : Routed) (s : State) : State :=
  let h := parseHeader r.payload
  let body := commandBody r.payload
  if r.payload.length < 8 ∨ h.total > 2048 ∨ body.length > h.total then
    immediateReport r.src h.code h.tag .badLength s
  else if body.length = h.total then offerCommand r.src h body s
  else s.setCmd { s.cmd with
    assembly := some ⟨r.src, h, body, plusFrames r.ref Config.assemblyFrames⟩ }

/-- The assembly discarded, with a report to its owner (R179, R180). -/
def discardAssembly (a : Assembly) (f : ErrFlag) (s : State) : State :=
  immediateReport a.owner a.header.code a.header.tag f (closeAssembly s)

/-- A COMMAND packet at the command unit (R178, R179). -/
def takeCommand (r : Routed) (s : State) : State :=
  match s.cmd.assembly with
  | none => takeFirst r s
  | some a =>
    if r.src = a.owner then takeFirst r (discardAssembly a .segment s)
    else
      let h := parseHeader r.payload
      immediateReport r.src h.code h.tag .busy s

/-- A COMMAND-MORE packet at the command unit (R178, R179).  DESIGN CHOICE (log entry 53): where the
owner's own packet discards the assembly, the report carries the assembly's code and tag (R185). -/
def takeMore (r : Routed) (s : State) : State :=
  match s.cmd.assembly with
  | none => immediateReport r.src 0 (moreTag r.payload) .segment s
  | some a =>
    if r.src ≠ a.owner then immediateReport r.src 0 (moreTag r.payload) .busy s
    else if r.payload.length < 2 ∨ moreTag r.payload ≠ a.header.tag then
      discardAssembly a .segment s
    else
      let body := a.body ++ r.payload.drop 2
      if body.length > a.header.total then discardAssembly a .badLength s
      else if body.length = a.header.total then
        offerCommand a.owner a.header body (closeAssembly s)
      else s.setCmd { s.cmd with
        assembly := some { a with body := body, deadline := plusFrames r.ref Config.assemblyFrames } }

/-- The assembly deadline is reached in the next frame (R180). -/
def State.timeoutDue (s : State) : Bool :=
  match s.cmd.assembly with
  | some a => a.deadline == s.nextAC
  | none => false

/-- An assembly still open at its deadline is discarded with TIMEOUT (R180). -/
def timeoutAssembly (s : State) : State :=
  match s.cmd.assembly with
  | some a => if a.deadline = s.nextAC then discardAssembly a .timeout s else s
  | none => s

/-- A routed packet taken by the block it is for (R13, R93, R178). -/
def takeRouted (r : Routed) (s : State) : State :=
  match r.route with
  | .cue => takeCue r s
  | .command => takeCommand r s
  | .commandMore => takeMore r s

/-- Every routed packet taken, in the order the lane parser completed them (R93). -/
def takeAllRouted (s : State) : State :=
  s.cmd.inbox.foldl (fun t r => takeRouted r t) (s.setCmd { s.cmd with inbox := [] })

end Sys2Proof.Machine
end

