-- ==== Sys2Proof/Machine/Trunk.lean ====
section
/-! DEFINITION. The trunk blocks (chapter 1): the frame check, the receiver's lock machine, the lane
parser, the pass-through FIFO and the egress merger. -/

namespace Sys2Proof.Machine

/-! ### Frames (R1, R2) -/

/-- The two bytes are the sync pattern (section 1.1). -/
def isSync (b0 b1 : Byte) : Bool := b0 == 0x9C && b1 == 0x63

/-- The sum of bytes, mod 256. -/
def byteSum (l : List Byte) : Byte := l.foldl (fun a b => a + b) 0

/-- The 54 bytes of a frame before its check byte. -/
def frameBytes (sync0 sync1 : Byte) (slots : Vector Sample 16) (aux : Vector Byte 4) : List Byte :=
  [sync0, sync1] ++ slots.toList.flatMap sampleBytes ++ aux.toList

/-- The frame check holds: the 55 bytes sum to 0 mod 256 (R1). -/
def checkHolds (f : TrunkFrame) : Bool :=
  byteSum (frameBytes f.sync0 f.sync1 f.slots f.aux) + f.check == 0

/-- An egress frame (R2). -/
def makeFrame (slots : Vector Sample 16) (aux : Vector Byte 4) : TrunkFrame where
  sync0 := 0x9C
  sync1 := 0x63
  slots := slots
  aux := aux
  check := 0 - byteSum (frameBytes 0x9C 0x63 slots aux)
  fill := Vector.replicate 9 0

/-! ### Hunting and verifying (R3, R4) -/

/-- One ingress byte in SEARCH (R3). -/
def searchByte (b : Byte) (s : State) : State :=
  match s.rx.prevByte with
  | some p =>
    if isSync p b then
      s.setRx { s.rx with lock := .verify, verifyRun := 1, prevByte := none }
    else s.setRx { s.rx with prevByte := some b }
  | none => s.setRx { s.rx with prevByte := some b }

/-- The fourth verified sync: LOCKED, and LOCK reported as locked (R4). -/
def enterLocked (s : State) : State :=
  raiseAlert .lock (s.setRx { s.rx with lock := .locked, verifyRun := 0, missRun := 0 })

/-- The two bytes at the expected frame start in VERIFY (R4).  After a miss the second of them is
the byte before the next one examined. -/
def verifyBytes (b0 b1 : Byte) (s : State) : State :=
  if isSync b0 b1 then
    if s.rx.verifyRun + 1 < 4 then s.setRx { s.rx with verifyRun := s.rx.verifyRun + 1 }
    else enterLocked s
  else s.setRx { s.rx with lock := .search, verifyRun := 0, prevByte := some b1 }

/-! ### Judging a frame in LOCKED (R1, R5, R6) -/

/-- What the receiver finds of a frame in LOCKED. -/
inductive FrameJudgment where
  | good | checkFailed | firstMiss | lockLost
  deriving DecidableEq, Repr

/-- The judgment of a frame in LOCKED (R1, R5). -/
def judgeFrame (rx : Receiver) (f : TrunkFrame) : FrameJudgment :=
  if isSync f.sync0 f.sync1 then
    if checkHolds f then .good else .checkFailed
  else if rx.missRun = 0 then .firstMiss
  else .lockLost

/-- The receiver's own part of a judgment: run, counters, latch, lock state and held values (R1, R5,
R6). -/
def Receiver.judged (rx : Receiver) (f : TrunkFrame) : FrameJudgment → Receiver
  | .good => { rx with missRun := 0, held := f.slots }
  | .checkFailed => { rx with missRun := 0, checkFail := bump rx.checkFail }
  | .firstMiss => { rx with missRun := 1, syncMiss := bump rx.syncMiss, syncSlip := true }
  | .lockLost => { rx with
      lock := .search, missRun := 0, prevByte := some f.sync1, syncMiss := bump rx.syncMiss,
      lockLoss := bump rx.lockLoss, held := Vector.replicate 16 0 }

/-- The carrying AC of a frame (section 2.5, R13): the AC of the egress frame being sent when it
began to arrive, plus 3. -/
def State.carryingAC (s : State) (formedSince : Nat) : AC :=
  s.clock.ac - BitVec.ofNat 32 formedSince + 3

/-! ### Pass-through FIFO (R14, R15) -/

/-- Bytes the FIFO holds; a mark takes no byte of capacity (section 1.5). -/
def fifoDepth (l : List FifoItem) : Nat :=
  l.countP fun i => match i with
    | .byte _ => true
    | .mark _ => false

/-- Items joined to the end of the FIFO. -/
def fifoAppend (l : List FifoItem) (s : State) : State :=
  s.setTx { s.tx with fifo := s.tx.fifo ++ l }

/-- Bytes discarded at a full FIFO (R15). -/
def countOverflow (n : Nat) (s : State) : State :=
  s.setTx { s.tx with fifoOverflow := bumpBy s.tx.fifoOverflow n }

/-- The lane parser's state replaced. -/
def setAssembly (a : LaneState) (s : State) : State := s.setLane { s.lane with assembly := a }

/-- Bytes of a packet in BODY that have arrived. -/
def LaneBody.arrived (b : LaneBody) : Nat :=
  5 + b.payload.length + (if b.checkA.isSome then 1 else 0)

/-- Bytes of a packet in BODY still to come. -/
def LaneBody.missing (b : LaneBody) : Nat := 7 + b.len - b.arrived

/-- One byte of a packet in BODY offered to the FIFO (R12, R15).  At a full FIFO it is discarded and
counted, a mark for it and the bytes after it is placed, and the taken copy is dropped. -/
def pushBody (b : LaneBody) (x : Byte) (s : State) : LaneBody × State :=
  if b.pushing then
    if fifoDepth s.tx.fifo < Config.fifoBytes then (b, fifoAppend [.byte x] s)
    else ({ b with pushing := false, take := false },
      fifoAppend [.mark b.missing] (countOverflow 1 s))
  else (b, s)

/-! ### Packets (R11 to R14) -/

/-- The address decision (R12). -/
inductive Decision where
  | consume | takeAndPass | pass
  deriving DecidableEq, Repr

/-- The address decision for a DEST with the addresses in force (R12). -/
def addressDecision (unitAddr groupAddr dest : Byte) : Decision :=
  if dest = unitAddr ∧ 1 ≤ unitAddr.toNat ∧ unitAddr.toNat ≤ 239 then .consume
  else if dest = 255 ∨ (dest = groupAddr ∧ 240 ≤ groupAddr.toNat ∧ groupAddr.toNat ≤ 254) then
    .takeAndPass
  else .pass

/-- A valid header: the decision is made, and a packet that is cut through has its five bytes
pushed together (R12); a header that does not all fit is discarded whole (R15). -/
def beginBody (kind dest src len : Byte) (s : State) : State :=
  let d := addressDecision s.lane.unitAddr s.lane.groupAddr dest
  let ab := checkSums [kind, dest, src, len]
  let body : LaneBody := {
    kind := kind, dest := dest, src := src, len := len.toNat, take := d ≠ .pass,
    consumed := d = .consume, pushing := d ≠ .consume, payload := [], sumA := ab.1, sumB := ab.2,
    checkA := none }
  if d = .consume then setAssembly (.body body) s
  else if fifoDepth s.tx.fifo + 5 ≤ Config.fifoBytes then
    setAssembly (.body body)
      (fifoAppend [.byte 0xC3, .byte kind, .byte dest, .byte src, .byte len] s)
  else setAssembly (.body { body with pushing := false, take := false }) (countOverflow 5 s)

/-- A checked packet routed to a block (R13). -/
def routeTo (r : Route) (b : LaneBody) (ref : AC) (s : State) : State :=
  s.setCmd { s.cmd with inbox := s.cmd.inbox ++ [⟨r, b.dest, b.src, b.payload, ref⟩] }

/-- A checked packet routed by its KIND (R13). -/
def routePacket (b : LaneBody) (ref : AC) (s : State) : State :=
  if b.kind = 0x10 then routeTo .cue b ref s
  else if b.kind = 0x20 then routeTo .command b ref s
  else if b.kind = 0x21 then routeTo .commandMore b ref s
  else if b.kind = 0x30 ∨ b.kind = 0x31 ∨ b.kind = 0x40 then
    s.setLane { s.lane with misdirected := bump s.lane.misdirected }
  else
    let s := s.setLane { s.lane with unknownKind := bump s.lane.unknownKind }
    if b.consumed then immediateReport b.src 0 0 .unknownKind s else s

/-- A packet completes with its second check byte (R13). -/
def completePacket (b : LaneBody) (a : Byte) (x : Byte) (ref : AC) (s : State) : State :=
  if b.take then
    if a.toNat = b.sumA ∧ x.toNat = b.sumB then routePacket b ref s
    else s.setLane { s.lane with badCheck := bump s.lane.badCheck }
  else s

/-- One aux byte in BODY (R11). -/
def bodyByte (b : LaneBody) (x : Byte) (ref : AC) (s : State) : State :=
  let p := pushBody b x s
  if b.payload.length < b.len then
    let ab := checkStep (b.sumA, b.sumB) x
    setAssembly (.body { p.1 with payload := b.payload ++ [x], sumA := ab.1, sumB := ab.2 }) p.2
  else match b.checkA with
    | none => setAssembly (.body { p.1 with checkA := some x }) p.2
    | some a => completePacket p.1 a x ref (setAssembly .idle p.2)

/-- One aux byte of a good frame (R11). -/
def laneByte (ref : AC) (s : State) (x : Byte) : State :=
  match s.lane.assembly with
  | .idle =>
    if x = 0 then s
    else if x = 0xC3 then setAssembly (.header [x]) s
    else s.setLane { s.lane with stray := bump s.lane.stray }
  | .header bytes =>
    match bytes with
    | [_, kind, dest, src] =>
      if x.toNat > 200 then
        s.setLane { s.lane with assembly := .idle, headerError := bump s.lane.headerError }
      else beginBody kind dest src x s
    | _ => setAssembly (.header (bytes ++ [x])) s
  | .body b => bodyByte b x ref s

/-- The four aux bytes of a good frame, in lane order (R11). -/
def laneFrame (ref : AC) (aux : Vector Byte 4) (s : State) : State :=
  aux.toList.foldl (laneByte ref) s

/-- A failed frame breaks the packet in assembly (R14). -/
def breakPacket (s : State) : State :=
  match s.lane.assembly with
  | .idle => s
  | .header _ => s.setLane { s.lane with assembly := .idle, broken := bump s.lane.broken }
  | .body b =>
    let s := s.setLane { s.lane with assembly := .idle, broken := bump s.lane.broken }
    if b.pushing then fifoAppend [.mark b.missing] s else s

/-! ### Egress merger (R16) -/

/-- The merger's send state replaced. -/
def setMerger (m : Merger) (s : State) : State := s.setTx { s.tx with merger := m }

/-- The merger after a local packet's next byte. -/
def localRest (rest : List Byte) : Merger := if rest.isEmpty then .between else .sendLocal rest

/-- A local packet is started: its first byte is sent. -/
def startLocal (p : Packet) (s : State) : Byte × State :=
  match packetBytes p with
  | [] => (0, s)
  | b :: rest => (b, setMerger (localRest rest) s)

/-- The merger after sending byte x of a pass-through packet as its byte number `sent` (from 0): LEN
is byte 4, the sums run from KIND through the last payload byte. -/
def passNext (sent len sumA sumB : Nat) (x : Byte) : Merger :=
  let len := if sent = 4 then x.toNat else len
  let ab := if 1 ≤ sent ∧ sent < 5 + len then checkStep (sumA, sumB) x else (sumA, sumB)
  if sent + 1 < 7 + len then .sendPass (sent + 1) len ab.1 ab.2 else .between

/-- A completion byte of a broken packet (R16): 0x00 for a payload byte, the correct check byte plus
1 mod 255 for a check byte. -/
def completionByte (sent len sumA sumB : Nat) : Byte :=
  if sent < 5 + len then 0
  else if sent = 5 + len then BitVec.ofNat 8 ((sumA + 1) % 255)
  else BitVec.ofNat 8 ((sumB + 1) % 255)

/-- The next byte of a pass-through packet in progress (R16).  The manual says the byte or the mark
is always there; an idle byte is sent otherwise (DESIGN CHOICE). -/
def passByte (sent len sumA sumB : Nat) (s : State) : Byte × State :=
  match s.tx.fifo with
  | .byte x :: rest =>
    (x, s.setTx { s.tx with fifo := rest, merger := passNext sent len sumA sumB x })
  | .mark n :: rest =>
    let x := completionByte sent len sumA sumB
    if n ≤ 1 then (x, s.setTx { s.tx with fifo := rest, merger := .between })
    else (x, s.setTx { s.tx with
      fifo := .mark (n - 1) :: rest, merger := passNext sent len sumA sumB x })
  | [] => (0, s)

/-- The first byte of the packet at the front of the FIFO, or an idle byte (R16). -/
def startPass (s : State) : Byte × State :=
  match s.tx.fifo with
  | .byte x :: rest => (x, s.setTx { s.tx with fifo := rest, merger := passNext 0 0 0 0 x })
  | _ => (0, s)

/-- One aux position between packets: the ALERT, the oldest reply packet, or a pass-through packet
(R16). -/
def betweenByte (s : State) : Byte × State :=
  if fifoDepth s.tx.fifo ≤ Config.localStartDepth then
    match s.alert.ready, s.cmd.replies with
    | some r, _ => startLocal (alertPacket r) (s.setAlert { s.alert with ready := none })
    | none, p :: rest => startLocal p (s.setCmd { s.cmd with replies := rest })
    | none, [] => startPass s
  else startPass s

/-- One aux position of an egress frame (R16). -/
def mergerByte (s : State) : Byte × State :=
  match s.tx.merger with
  | .sendLocal (b :: rest) => (b, setMerger (localRest rest) s)
  | .sendLocal [] => betweenByte (setMerger .between s)
  | .sendPass sent len sumA sumB => passByte sent len sumA sumB s
  | .between => betweenByte s

/-- The four aux bytes of an egress frame (R16). -/
def mergerFrame (s : State) : Vector Byte 4 × State :=
  let a := mergerByte s
  let b := mergerByte a.2
  let c := mergerByte b.2
  let d := mergerByte c.2
  (#v[a.1, b.1, c.1, d.1], d.2)

end Sys2Proof.Machine
end

