-- ==== Sys2Proof/Machine/Frames.lean ====
section
/-! DEFINITION. The frames of the trunk: an ingress frame in LOCKED (R1, R5, R6, R13, R14), the work
of the next egress frame in its order, and the three ways an egress frame is timed (R7, R8, R10). -/

namespace Sys2Proof.Machine

/-! ### Steps that follow a frame at once -/

/-- The steps a frame just handled has made due: the end of an ingest (R31, R29), the SILENCE level
(R154) and the start of a recovery (R159), channel by channel in ascending number
(DESIGN CHOICE, log entries 52 and 54). -/
def settle (s : State) : State :=
  forChannels (fun c t => beginRecovery c (reachSilence c t)) (settleIngest s)

/-! ### Between two egress frames -/

/-- The join of channel c, when its frame X has been formed (R142). -/
def joinIfDue (c : Fin 4) (s : State) : State := if s.joinDue c then joinBreak c s else s

/-- Everything that comes between the last egress frame and the next, taken before the next is
begun: the steps the last frame made due, joins (R142), voice events (R61), routed packets (R93) and
reply packets (R184).  DESIGN CHOICE (log entry 54): channels in ascending number. -/
def openFrame (s : State) : State :=
  if s.forming.opened then s
  else
    let s := forChannels joinIfDue (settle s)
    let s := queueReplies (takeAllRouted (deliverAll s))
    s.setForming { s.forming with opened := true }

/-! ### The work of the next egress frame, in its order -/

/-- The next frame opened, and every break whose S it is (R139).  DESIGN CHOICE (log entry 40): a FADED
that a takeover with J_o = 0 raises here joins the queue at once, before the events of voices of a
lower number in the same frame (R60 asks for both orders). -/
def openBreaks (s : State) : State := openDueBreaks (openFrame s)

/-- What the next frame does at a moment it reaches: assembly deadline (R180), expiries (R112), TIME
records (R134).  DESIGN CHOICE (log entry 54): where several channels have something due in one frame, they
are taken in ascending channel number, which decides whose claim gets the last FREE voices; a row
TIME_TRIGGER or BREAK_EXPIRY taken before the frame comes first. -/
def reachMoments (s : State) : State :=
  forChannels judgeTime (forChannels expireAll (timeoutAssembly s))

/-- The gain and duck moves of a boundary frame (R71, R72, R74, R75).  DESIGN CHOICE (log entry 55): joins
that several channels complete in one boundary frame are completed, and their as-run records written (R144),
in ascending channel number. -/
def boundaryMoves (s : State) : State :=
  if isBoundary s.nextAC then
    forChannels moveDuck
      (forChannels (fun c t => finishReturn c (finishJoin c (moveGain c t))) s)
  else s

/-- The contact samples of a boundary frame, once in it (R162). -/
def sampleOnce (gpi : Byte) (s : State) : State :=
  if isBoundary s.nextAC ∧ s.forming.sampled = false then
    let s := sampleLines gpi s
    s.setForming { s.forming with sampled := true }
  else s

/-- The frame is formed and sent: the air clock stands at its AC (R87), the last frame of a block is
judged (R153), and a boundary frame not yet sampled is (R162).  DESIGN CHOICE (log entry 52): the monitors
judge, and attempt their emergency fills, in ascending channel number, those whose SILENCE level was
active before those whose level this block activates. -/
def afterFrame (f : TrunkFrame) (gpi : Byte) (s : State) : State :=
  let a := s.nextAC
  let sampled := s.forming.sampled
  let s := s.setTx { s.tx with sent := some f }
  let s := s.setClock { s.clock with ac := a, noneFormed := false }
  let s := s.setForming .start
  let s := if isBlockEnd a then forChannels judgeBlock s else s
  if isBoundary a ∧ sampled = false then sampleLines gpi s else s

/-- The next egress frame, carrying an ingress frame or none (R2, R7, R8, R50, R77, R16). -/
def formFrame (carried : Option (Vector Sample 16)) (gpi : Byte) (s : State) : State :=
  let s := handleThrough 15 (boundaryMoves (reachMoments (openBreaks s)))
  let m := mixAll carried s
  let x := mergerFrame m.2
  afterFrame (makeFrame m.1 x.1) gpi x.2

/-! ### Egress timing (R7 to R10) -/

/-- An egress frame timed by the oldest frame of the transit; in HOLDOVER the transmitter returns to
FOLLOW and counts a timing slip (R7, R10). -/
def followFrame (gpi : Byte) (s : State) : State :=
  match s.tx.transit with
  | [] => s
  | f :: rest =>
    let slip := if s.tx.mode = .holdover then bump s.tx.timingSlip else s.tx.timingSlip
    formFrame (some f.slots) gpi (s.setTx { s.tx with
      mode := .follow, awaitFirst := false, transit := rest, timingSlip := slip })

/-- An egress frame of HOLDOVER, with the period counter loaded (R8, R9). -/
def holdoverFrame (gpi : Byte) (s : State) : State :=
  formFrame none gpi
    (s.setTx { s.tx with awaitFirst := false, periodCounter := s.tx.holdover })

/-- The transmitter enters HOLDOVER: the transit is discarded, and the first HOLDOVER frame is
awaited unless the transmitter was in HOLDOVER already (R8). -/
def enterHoldover (s : State) : State :=
  s.setTx { s.tx with
    mode := .holdover, transit := []
    awaitFirst := s.tx.awaitFirst || s.tx.mode == .follow }

/-! ### An ingress frame in LOCKED -/

/-- A frame delivered to the slot path and the ingest engine (R1, R6, R27). -/
def deliverFrame (f : TransitFrame) (s : State) : State :=
  captureFrame f (s.setTx { s.tx with
    transit := s.tx.transit ++ [f], lastCarrying := some f.carrying })

/-- What a judgment reports (R5).  DESIGN CHOICE (log entry 35): where the frame that ends the lock also
brings the ingest to its end (R27, R29, R31), LOCK is reported first and the reached end is carried
out, so the ingest keeps its clip; only an ingest that no end has reached is discarded with LINK_LOST
(R33). -/
def reportJudgment (j : FrameJudgment) (s : State) : State :=
  match j with
  | .good | .checkFailed => s
  | .firstMiss => raiseAlert .syncSlip s
  | .lockLost =>
    let s := enterHoldover (raiseAlert .lock s)
    discardIngest .linkLost (settleIngest s)

/-- An ingress frame in LOCKED (R1, R5, R6, R11, R14).  DESIGN CHOICE (log entry 49): the frame is captured
before its judgment is reported, so a ring that fills in a missed frame discards the ingest with
NO_ROOM, and INGEST is raised before SYNC_SLIP or LOCK.  DESIGN CHOICE (log entry 56): a RECORD_STOP cue
that completes in the frame is taken after the capture of the frame, so where the frame also reaches the
limit, the region end or a full ring, the ingest ends for that cause and not with CUE_STOP (R29). -/
def lockedFrame (f : TrunkFrame) (formedSince : Nat) (s : State) : State :=
  let j := judgeFrame s.rx f
  let good := j == .good
  let held := s.rx.held
  let ref := s.carryingAC formedSince
  let s := s.setRx (s.rx.judged f j)
  let s := deliverFrame ⟨ref, if good then f.slots else held, good⟩ s
  let s := if good then laneFrame ref f.aux s else breakPacket s
  reportJudgment j s

/-- The ingress frame is taken: the receiver is LOCKED and the transit has room (R1, R7). -/
def State.frameTaken (s : State) : Bool := s.locked && decide (s.tx.transit.length < 3)

end Sys2Proof.Machine
end

