-- ==== Sys2Proof/Machine/Operands.lean ====
section
/-! DEFINITION. The operand forms of the commands: enumerated values (R201), absent and clamped
fields (R195), and the wire layouts of records (R198 to R200, R202), read and written. -/

namespace Sys2Proof.Machine

/-! ### Enumerations (R201) -/

def LockState.code : LockState → Nat
  | .search => 0 | .verify => 1 | .locked => 2
def EgressMode.code : EgressMode → Nat
  | .follow => 0 | .holdover => 1
def ChannelState.code : ChannelState → Nat
  | .halted => 0 | .network => 1 | .preroll => 2 | .onBreak => 3 | .joining => 4 | .emergency => 5
def RecState.code : RecState → Nat
  | .loading => 0 | .pending => 1 | .preroll => 2 | .onAir => 3 | .joining => 4
def Trigger.code : Trigger → Nat
  | .cue _ => 0 | .time _ => 1 | .manual => 2
def ItemClass.code : ItemClass → Nat
  | .must => 0 | .drop => 1
def EntryState.code : EntryState → Nat
  | .empty => 0 | .armed => 1 | .filling => 2 | .ready => 3
def Region.code : Region → Nat
  | .library => 0 | .ring => 1
def Layout.code : Layout → Nat
  | .mono => 0 | .stereo => 1
def IngestOutcome.code : IngestOutcome → Nat
  | .none => 0 | .limit => 1 | .cueStop => 2 | .commandStop => 3 | .regionEnd => 4
  | .emptyClip => 5 | .noRoom => 6 | .linkLost => 7
def AsRunKind.code : AsRunKind → Nat
  | .item => 0 | .fill => 1 | .cart => 2 | .emergency => 3
def AirOutcome.code : AirOutcome → Nat
  | .full => 0 | .cut => 1 | .dropped => 2 | .notAired => 3
def Cause.code : Cause → Nat
  | .none => 0 | .fit => 1 | .time => 2 | .close => 3 | .abort => 4 | .reset => 5 | .noVoice => 6
  | .missed => 7
def EmPhase.code : EmPhase → Nat
  | .none => 0 | .covering => 1 | .recovering => 2 | .yielding => 3
/-- Preroll origin: 0 for absent. -/
def originCode : Option PrerollOrigin → Nat
  | none => 0 | some .network => 1 | some .emergency => 2
/-- The rate class is carried as the rate itself (R200). -/
def RateClass.code : RateClass → Nat
  | .r32000 => 32000 | .r44100 => 44100 | .r48000 => 48000

def regionOf : Nat → Option Region
  | 0 => some .library | 1 => some .ring | _ => none
def layoutOf : Nat → Option Layout
  | 0 => some .mono | 1 => some .stereo | _ => none
def rateOf (n : Nat) : Option RateClass :=
  if n = 32000 then some .r32000 else if n = 44100 then some .r44100
  else if n = 48000 then some .r48000 else none
def classOf : Nat → Option ItemClass
  | 0 => some .must | 1 => some .drop | _ => none
/-- A flag or presence byte; another value is refused (R195, R201). -/
def flagOf : Nat → Option Bool
  | 0 => some false | 1 => some true | _ => none

/-! ### Field values -/

/-- A value put into a range, and whether it was clamped. -/
def clampField (lo hi x : Nat) : Nat × Bool := (clampNat lo hi x, clampNat lo hi x != x)
/-- A gain code at most 4095, and whether it was clamped. -/
def clampCode (x : Nat) : Nat × Bool := clampField 0 Config.maxCode x
/-- A signed value from its two's complement field of k bytes. -/
def signedField (l : List Byte) (off k : Nat) : Int :=
  let n := field l off k
  if n < 256 ^ k / 2 then (n : Int) else (n : Int) - (256 ^ k : Nat)
/-- A clip number field, 0xFFFF for absent (R195). -/
def clipOrAbsent (n : Nat) : Option Nat := if n = 0xFFFF then none else some n
/-- The clip number field of a clip or its absence. -/
def clipField (n : Option Nat) : List Byte := toBytes (n.getD 0xFFFF) 2
/-- A number of k bytes, 0 when absent (R195). -/
def optBytes (n : Option Nat) (k : Nat) : List Byte := toBytes (n.getD 0) k
/-- An AC as four bytes, 0 when absent. -/
def acBytes (a : Option AC) : List Byte := optBytes (a.map fun x => x.toNat) 4
/-- A presence byte followed by an AC. -/
def acPresent (a : Option AC) : List Byte := [flagByte a.isSome] ++ acBytes a
/-- An AC field. -/
def acField (l : List Byte) (off : Nat) : AC := BitVec.ofNat 32 (field l off 4)

/-! ### Directory entries (R200) -/

/-- A directory entry, 48 bytes. -/
def entryBytes (n : Nat) (e : DirEntry) : List Byte :=
  toBytes n 2 ++ toBytes e.state.code 1 ++ toBytes e.region.code 1 ++ toBytes e.firstPage 2
    ++ toBytes e.length 4 ++ toBytes e.layout.code 1 ++ toBytes e.rate.code 2
    ++ toBytesInt e.trim 2 ++ [flagByte e.loop.isSome] ++ optBytes (e.loop.map fun p => p.1) 4
    ++ optBytes (e.loop.map fun p => p.2) 4 ++ toBytes e.spotKey.toNat 4 ++ e.label.toList
    ++ toBytes e.damage 2 ++ toBytes e.hold 2

/-! ### Channel configuration (R64, R65, R200) -/

/-- A channel configuration record, 35 bytes. -/
def configBytes (c : ChannelConfig) : List Byte :=
  [flagByte c.enable] ++ toBytes c.slotL 1 ++ toBytes c.slotR 1 ++ toBytes c.openFade 2
    ++ toBytes c.joinFade 2 ++ clipField c.fillClip ++ toBytes c.fillLevel 2
    ++ toBytes c.fillThreshold 4 ++ clipField c.emClip ++ toBytes c.emLevel 2
    ++ [flagByte c.autoFill] ++ toBytes c.silThreshold 4 ++ toBytes c.silLimit 2
    ++ toBytes c.recLimit 2 ++ toBytes c.duckDepth 2 ++ toBytes c.duckRate 1
    ++ toBytes c.lateGrace 4

/-- The fields a CHANNEL_SET gives: the configuration record as sent, with the presence bits. -/
structure ConfigEdit where
  presence : Nat
  body     : List Byte
  deriving DecidableEq, Repr

/-- Field number i is present. -/
def ConfigEdit.has (e : ConfigEdit) (i : Nat) : Bool := e.presence.testBit i
/-- A field of the record as sent. -/
def ConfigEdit.num (e : ConfigEdit) (off k : Nat) : Nat := field e.body off k

/-- The edit of a CHANNEL_SET body: channel 1, presence 4, record 35 (R198).  Presence bits above
bit 16 name no field and are ignored (DESIGN CHOICE). -/
def configEdit (b : List Byte) : ConfigEdit := ⟨field b 1 4 % 2 ^ 17, b.drop 5⟩

/-- A clip number given is 0..1023 or absent. -/
def clipAllowed (n : Nat) : Bool := n == 0xFFFF || decide (n ≤ 1023)

/-- Check 2 of R65: slots, clip numbers, enable and auto-fill. -/
def ConfigEdit.known (e : ConfigEdit) : Bool :=
  (!e.has 0 || (flagOf (e.num 0 1)).isSome)
    && (!e.has 1 || decide (e.num 1 1 ≤ 15)) && (!e.has 2 || decide (e.num 2 1 ≤ 15))
    && (!e.has 5 || clipAllowed (e.num 7 2)) && (!e.has 8 || clipAllowed (e.num 15 2))
    && (!e.has 10 || (flagOf (e.num 19 1)).isSome)

/-- A fade length as stored: 0, or put into 17..1023 (R65). -/
def clampFade (j : Nat) : Nat := fadeBlocks j

/-- A field replaced when present, else kept. -/
def ConfigEdit.pick {α : Type} (e : ConfigEdit) (i : Nat) (new old : α) : α :=
  if e.has i then new else old

/-- The configuration after the edit, numeric fields clamped into the ranges of R64 (R65, R66). -/
def ConfigEdit.apply (e : ConfigEdit) (c : ChannelConfig) : ChannelConfig where
  enable := e.pick 0 (e.num 0 1 == 1) c.enable
  slotL := e.pick 1 (e.num 1 1) c.slotL
  slotR := e.pick 2 (e.num 2 1) c.slotR
  openFade := e.pick 3 (clampFade (e.num 3 2)) c.openFade
  joinFade := e.pick 4 (clampFade (e.num 5 2)) c.joinFade
  fillClip := e.pick 5 (clipOrAbsent (e.num 7 2)) c.fillClip
  fillLevel := e.pick 6 (min (e.num 9 2) 4095) c.fillLevel
  fillThreshold := e.pick 7 (min (e.num 11 4) 14400000) c.fillThreshold
  emClip := e.pick 8 (clipOrAbsent (e.num 15 2)) c.emClip
  emLevel := e.pick 9 (min (e.num 17 2) 4095) c.emLevel
  autoFill := e.pick 10 (e.num 19 1 == 1) c.autoFill
  silThreshold := e.pick 11 (min (e.num 20 4) 8388608) c.silThreshold
  silLimit := e.pick 12 (clampNat 1 65535 (e.num 24 2)) c.silLimit
  recLimit := e.pick 13 (clampNat 1 65535 (e.num 26 2)) c.recLimit
  duckDepth := e.pick 14 (min (e.num 28 2) 3840) c.duckDepth
  duckRate := e.pick 15 (clampNat 1 255 (e.num 30 1)) c.duckRate
  lateGrace := e.pick 16 (min (e.num 31 4) 14400000) c.lateGrace

/-- A present numeric field was clamped. -/
def ConfigEdit.clamps (e : ConfigEdit) (i off k stored : Nat) : Bool :=
  e.has i && stored != e.num off k

/-- Some present numeric field was clamped (R65). -/
def ConfigEdit.clamped (e : ConfigEdit) (c : ChannelConfig) : Bool :=
  let r := e.apply c
  e.clamps 3 3 2 r.openFade || e.clamps 4 5 2 r.joinFade || e.clamps 6 9 2 r.fillLevel
    || e.clamps 7 11 4 r.fillThreshold || e.clamps 9 17 2 r.emLevel
    || e.clamps 11 20 4 r.silThreshold || e.clamps 12 24 2 r.silLimit
    || e.clamps 13 26 2 r.recLimit || e.clamps 14 28 2 r.duckDepth || e.clamps 15 30 1 r.duckRate
    || e.clamps 16 31 4 r.lateGrace

/-! ### As-run records (R168, R200) -/

/-- The short form, 16 bytes. -/
def shortForm (r : AsRunRecord) : List Byte :=
  toBytes (r.channel.val * 64 + r.kind.code * 16 + r.outcome.code * 4 + (if r.late then 1 else 0)) 1
    ++ toBytes (r.cause.code * 32 + r.itemNo.getD 0) 1 ++ optBytes r.breakNo 2 ++ toBytes r.clip 2
    ++ toBytes r.spotKey.toNat 4 ++ acBytes r.planned
    ++ toBytes (match r.squeeze with | some f => f - 65536 | none => 0) 2

/-- A record in its form: the full form of 28 bytes for an aired record, the short form for any
other (R168). -/
def recordBytes (r : AsRunRecord) : List Byte :=
  match r.aired with
  | none => shortForm r
  | some a => shortForm r ++ toBytes a.startAC.toNat 4 ++ toBytes a.endAC.toNat 4
    ++ toBytes a.frames 4

/-! ### Break records (R199) -/

/-- A fade of an item as loaded: presence, rate and interval; absent values are not read. -/
def parseFade (b : List Byte) (off : Nat) : Option (Option ItemFade × Bool) :=
  match flagOf (byteAt b off) with
  | none => none
  | some false => some (none, false)
  | some true =>
    if byteAt b (off + 2) > 3 then none
    else
      let rate := clampField 1 255 (byteAt b (off + 1))
      some (some ⟨rate.1, byteAt b (off + 2)⟩, rate.2)

/-- An item of a load part from its 16 bytes, and whether a value was clamped; none where R107
refuses it. -/
def parseItem (b : List Byte) : Option (Item × Bool) :=
  match classOf (byteAt b 2), flagOf (byteAt b 3), parseFade b 10, parseFade b 13 with
  | some cls, some stretch, some fin, some fout =>
    if field b 0 2 > 1023 then none
    else
      let level := clampCode (field b 4 2)
      let overlap := clampField 0 480000 (field b 6 4)
      some (⟨field b 0 2, cls, stretch, level.1, overlap.1, fin.1, fout.1⟩,
        level.2 || overlap.2 || fin.2 || fout.2)
  | _, _, _, _ => none

/-- The items of a load part, and whether a value was clamped. -/
def parseItems : Nat → List Byte → Option (List Item × Bool)
  | 0, _ => some ([], false)
  | n + 1, b =>
    match parseItem (b.take 16), parseItems n (b.drop 16) with
    | some i, some r => some (i.1 :: r.1, i.2 || r.2)
    | _, _ => none

/-- A fade as a load part and BREAK_LIST carry it. -/
def fadeBytes (f : Option ItemFade) : List Byte :=
  match f with
  | none => [0, 0, 0]
  | some f => [1] ++ toBytes f.rate 1 ++ toBytes f.interval 1

/-- An item record, 16 bytes. -/
def itemBytes (i : Item) : List Byte :=
  toBytes i.clip 2 ++ toBytes i.cls.code 1 ++ [flagByte i.stretch] ++ toBytes i.level 2
    ++ toBytes i.overlap 4 ++ fadeBytes i.fadeIn ++ fadeBytes i.fadeOut

/-- The key or target field of a trigger; 0 for MANUAL. -/
def Trigger.keyOrTarget : Trigger → Nat
  | .cue k => k
  | .time t => t.toNat
  | .manual => 0

/-- A BREAK_LIST summary, 38 bytes. -/
def summaryBytes (place : Nat) (r : BreakRecord) : List Byte :=
  toBytes r.number 2 ++ toBytes place 1 ++ toBytes r.state.code 1 ++ toBytes r.trigger.code 1
    ++ toBytes r.trigger.keyOrTarget 4 ++ toBytes r.window 4 ++ toBytes r.netLevel 2
    ++ clipField r.fillClip ++ acPresent r.expiry ++ toBytes r.items.length 1
    ++ acPresent r.start ++ acPresent r.deadline ++ acPresent r.ret

/-! ### Contact functions (R198, R201) -/

/-- A GPI line's function, channel, clip and level: 6 bytes. -/
def gpiFunctionBytes : GpiFunction → List Byte
  | .none => [0, 0, 0, 0, 0, 0]
  | .micLive c => [1] ++ toBytes c.val 1 ++ [0, 0, 0, 0]
  | .brk c => [2] ++ toBytes c.val 1 ++ [0, 0, 0, 0]
  | .abort c => [3] ++ toBytes c.val 1 ++ [0, 0, 0, 0]
  | .emergency c => [4] ++ toBytes c.val 1 ++ [0, 0, 0, 0]
  | .cart c clip level => [5] ++ toBytes c.val 1 ++ toBytes clip 2 ++ toBytes level 2

/-- A GPI_SET's function from its fields, and whether the level was clamped (R164). -/
def gpiFunctionOf (fn channel clip level : Nat) : Option (GpiFunction × Bool) :=
  match fn, channelOf channel with
  | 0, _ => some (.none, false)
  | 1, some c => some (.micLive c, false)
  | 2, some c => some (.brk c, false)
  | 3, some c => some (.abort c, false)
  | 4, some c => some (.emergency c, false)
  | 5, some c =>
    if clip > 1023 then none
    else
      let l := clampCode level
      some (.cart c clip l.1, l.2)
  | _, _ => none

/-- A GPO line's function and channel: 2 bytes. -/
def gpoFunctionBytes : GpoFunction → List Byte
  | .none => [0, 0]
  | .onAir c => [1] ++ toBytes c.val 1
  | .silence c => [2] ++ toBytes c.val 1
  | .alertPending => [3, 0]
  | .locked => [4, 0]

/-- A GPO_SET's function from its fields (R165). -/
def gpoFunctionOf (fn channel : Nat) : Option GpoFunction :=
  match fn, channelOf channel with
  | 0, _ => some .none
  | 1, some c => some (.onAir c)
  | 2, some c => some (.silence c)
  | 3, _ => some .alertPending
  | 4, _ => some .locked
  | _, _ => none

/-- GPI_SET's reply: 7 bytes for each of the eight lines (R198). -/
def gpiTable (s : State) : List Byte :=
  allGpi.flatMap fun g =>
    gpiFunctionBytes (s.gpiLine g).fn ++ [flagByte (s.gpiLine g).stable]

/-- GPO_SET's reply: 3 bytes for each of the four lines (R198). -/
def gpoTable (s : State) : List Byte :=
  allGpo.flatMap fun g => gpoFunctionBytes s.gpo[g.val] ++ [flagByte (s.gpoDrive g)]

/-! ### The status record (R202) -/

/-- A list of two-byte counters. -/
def counters (l : List Nat) : List Byte := l.flatMap fun n => toBytes n 2

/-- Section 1, Link and clock. -/
def linkSection (s : State) : List Byte :=
  toBytes s.clock.ac.toNat 4 ++ toBytes s.rx.lock.code 1 ++ toBytes s.tx.mode.code 1
    ++ [flagByte s.rx.syncSlip] ++ toBytes s.tx.holdover 2 ++ [s.lane.unitAddr, s.lane.groupAddr]
    ++ counters [s.rx.syncMiss, s.rx.checkFail, s.rx.lockLoss, s.lane.stray, s.lane.headerError,
      s.lane.badCheck, s.lane.misdirected, s.lane.unknownKind, s.lane.broken, s.tx.timingSlip,
      s.tx.fifoOverflow]
    ++ [flagByte s.clock.mark.valid] ++ toBytes s.clock.mark.ac.toNat 4
    ++ toBytes s.clock.mark.seconds 4 ++ toBytes s.clock.mark.frame 2

/-- Section 2, Cues, commands, alerts. -/
def cueSection (s : State) : List Byte :=
  counters [s.cues.cue, s.cues.unknown, s.cues.malformed, s.cues.unmatched, s.cues.refused,
      s.cues.recordBusy, s.cues.recordUnmatched]
    ++ toBytes (Config.commandQueue - s.cmd.queue.length) 1 ++ toBytes s.cmd.replies.length 1
    ++ [flagByte s.cmd.assembly.isSome] ++ toBytes s.cmd.reportDrops 2
    ++ toBytes s.alert.mask.toNat 4 ++ toBytes s.alert.changed.toNat 4
    ++ [flagByte s.alert.pending]

/-- Section 3, Store, voices, queues. -/
def storeSection (s : State) : List Byte :=
  let st := s.store
  [flagByte st.engine.isSome] ++ optBytes (st.engine.map fun g => g.arm.clip) 2
    ++ optBytes (st.engine.map fun g => g.words) 4 ++ toBytes st.armList.length 1
    ++ toBytes st.lp 2 ++ toBytes st.currentPage 2 ++ toBytes st.boundaryPage 2
    ++ toBytes st.freePages 2 ++ toBytes st.lastReport.clip 2
    ++ toBytes st.lastReport.outcome.code 1 ++ toBytes st.lastReport.length 4
    ++ toBytes s.freeVoices.length 1 ++ toBytes s.reserve 1 ++ toBytes s.events.length 1
    ++ toBytes s.poolFree 2 ++ toBytes s.asrun.records.length 2 ++ toBytes s.asrun.lost 2
    ++ [flagByte s.asrunHigh]

/-- Sections 4 to 7, one channel. -/
def channelSection (s : State) (c : Fin 4) : List Byte :=
  let x := s.ch c
  let m := x.monitor
  [flagByte x.config.enable] ++ toBytes x.state.code 1 ++ toBytes (originCode x.origin) 1
    ++ [flagByte x.returning] ++ toBytes x.gain 2 ++ toBytes x.gainTarget 2 ++ toBytes x.duck 2
    ++ [flagByte (s.micLive c)] ++ toBytes x.saturation 2 ++ toBytes x.cartRefusals 2
    ++ toBytes x.fireRefusals 2 ++ toBytes (s.voicesOwned c .brk) 1
    ++ toBytes (s.voicesOwned c .cart) 1 ++ toBytes (s.voicesOwned c .emergency) 1
    ++ toBytes x.queue.length 1 ++ optBytes ((s.flight c).map fun r => r.number) 2
    ++ optBytes ((s.flight c).map fun r => r.state.code) 1 ++ toBytes m.silentCount 2
    ++ [flagByte m.silence] ++ toBytes m.recoveryCount 2 ++ toBytes m.phase.code 1
    ++ optBytes (m.emRecord.map fun r => r.voice.val) 1 ++ toBytes m.refusals 2

/-- Section 8, Contacts. -/
def contactSection (s : State) : List Byte :=
  toBytes (levelBits 0 (allGpi.map fun g => (s.gpiLine g).stable)) 1
    ++ toBytes (levelBits 0 (allGpo.map fun g => s.gpoDrive g)) 1

/-- The eight sections, in order. -/
def statusSections (s : State) : List (List Byte) :=
  [linkSection s, cueSection s, storeSection s] ++ allChannels.map (channelSection s)
    ++ [contactSection s]

/-- How many of a list of parts, in order, fit whole within a number of bytes. -/
def fitting : Nat → List (List Byte) → Nat
  | _, [] => 0
  | room, p :: l => if p.length ≤ room then fitting (room - p.length) l + 1 else 0

end Sys2Proof.Machine
end

