-- ==== Sys2Proof/Machine/Execute.lean ====
section
/-! DEFINITION. The execution of the oldest command (R182, R183), and the codes of the commands
(R198). -/

namespace Sys2Proof.Machine

/-- What a row of the table answers. -/
abbrev Result := Host.Outcome State Fault Refusal

/-- What a command does: its reply and the state after. -/
abbrev Action := Command → State → Reply × State

/-- A command whose body has one length (R182, R198). -/
def sized (n : Nat) (f : List Byte → State → Reply × State) : Action := fun c s =>
  if c.body.length = n then f c.body s else (.refused .badLength, s)

/-- A refusal that changes nothing. -/
def refuse (f : ErrFlag) (s : State) : Reply × State := (.refused f, s)

/-- A success without data and without a clamped value. -/
def accept (s : State) : Reply × State := (.done false false [], s)

/-- The reply data kept within the data limit, which bounds every reply that carries data (R177).
DESIGN CHOICE: data of a fixed layout longer than the limit is cut at it and TRUNCATED is set. -/
def limitReply (limit : Nat) : Reply → Reply
  | .refused f => .refused f
  | .done clamped truncated d =>
    .done clamped (truncated || decide (limit < d.length)) (d.take limit)

/-- The oldest command in the queue is of this row, and the reply build area is empty (R182). -/
def State.commandDue (s : State) (row : Command → Bool) : Bool :=
  s.cmd.build.isEmpty && s.cmd.queue.head?.any row

/-- The command leaves the queue. -/
def popCommand (s : State) : State := s.setCmd { s.cmd with queue := s.cmd.queue.tail }

/-- The oldest command executed as one event, and its reply placed in the build area (R182 to
R184). -/
def executeOldest (always : Bool) (f : Action) (s : State) : State :=
  match s.cmd.queue with
  | [] => s
  | c :: _ =>
    let r := f c (popCommand s)
    answer c always (limitReply (dataLimit c.header) r.1) r.2

/-- A command row: taken when the oldest command is of the row and the build area is empty, after the
steps the last frame made due; otherwise nothing changes. -/
def runRow (row : Command → Bool) (always : Bool) (f : Action) (s : State) : Result :=
  .next (if s.commandDue row then executeOldest always f (settle s) else s)

/-- The command has this code. -/
def hasCode (code : Nat) (c : Command) : Bool := c.header.code == code

/-- The codes that name a command (R198). -/
def knownCodes : List Nat :=
  [0x01, 0x02, 0x03, 0x04, 0x05, 0x06, 0x10, 0x11, 0x12, 0x20, 0x21, 0x22, 0x23, 0x24, 0x25, 0x30,
    0x31, 0x32, 0x33, 0x34, 0x35, 0x36, 0x40, 0x41, 0x50, 0x51]

end Sys2Proof.Machine
end

