-- ==== Sys2Proof/Machine/AsRunCommands.lean ====
section
/-! DEFINITION. The commands of the as-run queue: ASRUN_FETCH (R171, R172) and ASRUN_DISCARD (R173). -/

namespace Sys2Proof.Machine

/-- The lost count after a reply has carried it (R172, R173). -/
def clearLost (s : State) : State := s.setAsrun { s.asrun with lost := 0 }

/-- The records a fetch may return: all of them for a maximum count of 0 (R171). -/
def fetchCandidates (maximum : Nat) (l : List AsRunRecord) : List AsRunRecord :=
  if maximum = 0 then l else l.take maximum

/-- The fetch summary, 8 bytes, of the queue after the command (R171, R198). -/
def fetchSummary (returned lost : Nat) (peek : Bool) (after : State) : List Byte :=
  toBytes returned 2 ++ toBytes after.asrun.records.length 2 ++ toBytes lost 2
    ++ [flagByte peek, flagByte after.asrunHigh]

/-- ASRUN_FETCH's work within a data limit (R171, R172). -/
def asrunFetch (h : CmdHeader) (b : List Byte) (s : State) : Reply × State :=
  let maximum := clampField 0 256 (field b 0 2)
  let parts := (fetchCandidates maximum.1 s.asrun.records).map recordBytes
  let n := fitting (dataLimit h - 8) parts
  let t := if h.peek then s else clearLost (asrunRemove n s)
  (.done maximum.2 (decide (n < parts.length))
    (fetchSummary n s.asrun.lost h.peek t ++ (parts.take n).flatten), t)

/-- ASRUN_FETCH (R171). -/
def execAsrunFetch (s : State) : Result :=
  runRow (hasCode 0x50) false (fun c => sized 2 (asrunFetch c.header) c) s

/-- ASRUN_DISCARD's work (R173). -/
def asrunDiscard (b : List Byte) (s : State) : Reply × State :=
  let n := clampField 0 256 (field b 0 2)
  let removed := min n.1 s.asrun.records.length
  let t := asrunRemove removed s
  (.done n.2 false (toBytes removed 2 ++ toBytes t.asrun.records.length 2
    ++ toBytes t.asrun.lost 2), clearLost t)

/-- ASRUN_DISCARD (R173). -/
def execAsrunDiscard (s : State) : Result := runRow (hasCode 0x51) false (sized 2 asrunDiscard) s

end Sys2Proof.Machine
end

