-- ==== Sys2Proof/Machine/AudioSteps.lean ====
section
/-! DEFINITION. The steps of the silence monitors, the voices, the schedulers and the contact unit
that a frame makes due (chapters 3, 6, 8, 9).  A step that is not due leaves the state as it is. -/

namespace Sys2Proof.Machine

/-! ### After a frame -/

/-- SILENCE_LIMIT_REACHED (R154). -/
def execSilenceLimitReached (c : Nat) (s : State) : Result :=
  match channelOf c with
  | none => .fault .noSuchChannel
  | some c => .next (reachSilence c s)

/-- RECOVERY_LIMIT_REACHED (R159). -/
def execRecoveryLimitReached (c : Nat) (s : State) : Result :=
  match channelOf c with
  | none => .fault .noSuchChannel
  | some c => .next (beginRecovery c s)

/-- VOICE_EVENT_DELIVERY (R61): the oldest event, once the frame that raised it has been formed. -/
def execVoiceEventDelivery (s : State) : Result :=
  .next (if s.forming.opened = false ∧ s.events ≠ [] then deliverEvent (settle s) else s)

/-- JOIN (R142): the frame at X has been formed. -/
def execJoin (c : Nat) (s : State) : Result :=
  match channelOf c with
  | none => .fault .noSuchChannel
  | some c =>
    .next (if s.forming.opened = false ∧ s.joinDue c = true then joinBreak c (settle s) else s)

/-! ### In the next frame, before it is formed -/

/-- Voice v is not yet handled in the next frame, and a test holds of it there. -/
def voiceDue (v : Fin 16) (test : State → Fin 16 → Bool) (s : State) : Bool :=
  let t := openBreaks s
  decide (t.forming.cursor ≤ v.val) && test t v

/-- A voice handled in the next frame, after the voices before it (R50). -/
def handleVoiceRow (v : Nat) (test : State → Fin 16 → Bool) (s : State) : Result :=
  match voiceOf v with
  | none => .fault .noSuchVoice
  | some v => .next (if voiceDue v test s then handleThrough v.val (openBreaks s) else s)

/-- VOICE_START (R48). -/
def execVoiceStart (v : Nat) (s : State) : Result := handleVoiceRow v State.startDue s

/-- VOICE_END (R53). -/
def execVoiceEnd (v : Nat) (s : State) : Result := handleVoiceRow v State.endDue s

/-- VOICE_FADED (R55). -/
def execVoiceFaded (v : Nat) (s : State) : Result := handleVoiceRow v State.fadedDue s

/-- BREAK_OPEN (R139). -/
def execBreakOpen (c : Nat) (s : State) : Result :=
  match channelOf c with
  | none => .fault .noSuchChannel
  | some c =>
    let t := openFrame s
    .next (if t.openDue c then openBreak c t else s)

/-- BREAK_EXPIRY (R112). -/
def execBreakExpiry (c n : Nat) (s : State) : Result :=
  match channelOf c with
  | none => .fault .noSuchChannel
  | some c =>
    if 1 ≤ n ∧ n ≤ 65535 then
      let t := openFrame s
      .next (if t.expiryDue c n then expireRecord c n t else s)
    else .fault .noSuchBreak

/-- A TIME record of channel c is due in the next frame (R134). -/
def State.timeRecordDue (s : State) (c : Fin 4) : Bool :=
  !s.forming.timeJudged.contains c && (s.ch c).queue.any fun r =>
    r.state == .pending && match r.trigger with
      | .time target => timeDue target s.nextAC
      | .cue _ | .manual => false

/-- TIME_TRIGGER (R134): the TIME records of a channel judged in the next frame. -/
def execTimeTrigger (c : Nat) (s : State) : Result :=
  match channelOf c with
  | none => .fault .noSuchChannel
  | some c =>
    let t := openFrame s
    .next (if t.timeRecordDue c then judgeTime c t else s)

/-- ASSEMBLY_TIMEOUT (R180). -/
def execAssemblyTimeout (s : State) : Result :=
  let t := openFrame s
  .next (if t.timeoutDue then timeoutAssembly t else s)

/-- GPI_LEVEL_CHANGE (R162): the contact lines sampled in a boundary frame. -/
def execGpiLevelChange (gpi : Byte) (s : State) : Result :=
  let t := openFrame s
  .next (if isBoundary t.nextAC ∧ t.forming.sampled = false then sampleOnce gpi t else s)

end Sys2Proof.Machine
end

