-- ==== Sys2Proof/Machine/BreakCommands.lean ====
section
/-! DEFINITION. The commands of the break schedulers: BREAK_LOAD (R106 to R110), BREAK_CANCEL (R113),
BREAK_LIST (R114), BREAK_FIRE (R136), BREAK_ABORT (R146) and VOICE_TRIM (R148). -/

namespace Sys2Proof.Machine

/-! ### BREAK_LOAD (R106 to R110, R199) -/

/-- A break number that may be named. -/
def breakNumberAllowed (n : Nat) : Bool := decide (1 ≤ n) && decide (n ≤ 65535)

/-- The trigger of a first part, in range (check 2 of R106). -/
def parseTrigger (kind value : Nat) : Option Trigger :=
  match kind with
  | 0 => if 1 ≤ value ∧ value ≤ 65535 then some (.cue value) else none
  | 1 => some (.time (BitVec.ofNat 32 value))
  | 2 => some .manual
  | _ => none

/-- What a load part carries beside its channel and break number, all in range. -/
structure LoadPart where
  more    : Bool
  items   : List Item
  clamped : Bool
  deriving DecidableEq, Repr

/-- The more-to-follow flag, the item count and the items of a part (checks 3 and 4 of R106, check 4
of R109). -/
def parsePart (b : List Byte) (countAt : Nat) : Option LoadPart :=
  let n := byteAt b countAt
  match flagOf (byteAt b 4), parseItems n (b.drop (countAt + 1)) with
  | some more, some items => if n ≤ Config.breakItems then some ⟨more, items.1, items.2⟩ else none
  | _, _ => none

/-- A clip with a presence byte before it: none where it is refused, `some none` for absent. -/
def parseFill (b : List Byte) : Option (Option Nat) :=
  match flagOf (byteAt b 16) with
  | none => none
  | some false => some none
  | some true => if field b 17 2 ≤ 1023 then some (some (field b 17 2)) else none

/-- An expiry with a presence byte before it. -/
def parseExpiry (b : List Byte) : Option (Option AC) :=
  (flagOf (byteAt b 19)).map fun p => if p then some (acField b 20) else none

/-- The expiry, if given, is after the last frame formed (check 5 of R106). -/
def expiryAhead (s : State) (e : Option AC) : Bool := e.all fun m => acBefore s.clock.ac m

/-- The record a first part describes, when checks 1 to 5 of R106 pass, with its channel and whether
a value was clamped (R107). -/
def parseFirst (b : List Byte) (s : State) : Option (Fin 4 × BreakRecord × Bool) :=
  match channelOf (byteAt b 0), parseTrigger (byteAt b 5) (field b 6 4), parseFill b, parseExpiry b,
      parsePart b 24 with
  | some c, some trigger, some fill, some expiry, some part =>
    if breakNumberAllowed (field b 1 2) ∧ field b 10 4 ≤ 14400000
        ∧ (part.more = true ∨ part.items ≠ []) ∧ expiryAhead s expiry = true then
      let level := clampCode (field b 14 2)
      some (c, {
        number := field b 1 2
        trigger := trigger
        window := field b 10 4
        netLevel := level.1
        fillClip := fill
        expiry := expiry
        items := part.items
        state := if part.more then .loading else .pending
        start := none
        deadline := none
        plan := none
        run := none }, level.2 || part.clamped)
    else none
  | _, _, _, _, _ => none

/-- Every clip of a list is READY. -/
def State.allReady (s : State) (clips : List Nat) : Bool := clips.all fun n => s.isReady n

/-- Every item's clip is long enough (check 10 of R106). -/
def State.allLong (s : State) (items : List Item) : Bool :=
  items.all fun i => decide (Config.itemFrames ≤ (s.entry i.clip).length)

/-- Checks 6 to 10 of R106. -/
def firstCheck (c : Fin 4) (r : BreakRecord) (s : State) : Option ErrFlag :=
  if (s.record c r.number).isSome then some .exists_
  else if Config.queueRecords ≤ (s.ch c).queue.length then some .noRoom
  else if s.poolFree < r.items.length then some .noRoom
  else if !s.allReady r.clips then some .notFound
  else if !s.allLong r.items then some .badField
  else none

/-- The queue place of a record, from 1. -/
def State.place (s : State) (c : Fin 4) (n : Nat) : Nat :=
  (s.ch c).queue.findIdx (fun r => r.number == n) + 1

/-- The items a record holds. -/
def State.itemCount (s : State) (c : Fin 4) (n : Nat) : Nat :=
  ((s.record c n).map fun r => r.items.length).getD 0

/-- The reply of an accepted load part (R108, R198). -/
def loadReply (c : Fin 4) (n : Nat) (clamped : Bool) (s : State) : Reply × State :=
  (.done clamped false (toBytes (s.place c n) 1 ++ toBytes (s.itemCount c n) 1
    ++ toBytes s.poolFree 2), s)

/-- A record joins the end of its channel's queue and takes its holds (R108, R110). -/
def addRecord (c : Fin 4) (r : BreakRecord) (s : State) : State :=
  let s := takeHolds r.clips s
  let x := s.ch c
  s.setCh c { x with queue := x.queue ++ [r] }

/-- A first part with a body of the right length (R106, R108). -/
def loadFirst (b : List Byte) (s : State) : Reply × State :=
  match parseFirst b s with
  | none => refuse .badField s
  | some (c, r, clamped) => match firstCheck c r s with
    | some f => refuse f s
    | none => loadReply c r.number clamped (addRecord c r s)

/-- The length a first part's item count gives (R199). -/
def firstLength (b : List Byte) : Nat := 25 + 16 * byteAt b 24
/-- The length a continuation's item count gives (R199). -/
def continuationLength (b : List Byte) : Nat := 6 + 16 * byteAt b 5

/-- BREAK_LOAD with any part kind but continuation.  A kind the table does not give is refused with
BAD_FIELD when the length fits one of the two parts (DESIGN CHOICE). -/
def breakLoadFirst (c : Command) (s : State) : Reply × State :=
  let b := c.body
  if byteAt b 3 = 0 then
    if b.length = firstLength b then loadFirst b s else refuse .badLength s
  else if b.length = firstLength b ∨ b.length = continuationLength b then refuse .badField s
  else refuse .badLength s

/-- The command is a BREAK_LOAD continuation. -/
def isContinuation (c : Command) : Bool := hasCode 0x30 c && byteAt c.body 3 == 1

/-- BREAK_LOAD_FIRST_PART (R106). -/
def execBreakLoadFirstPart (s : State) : Result :=
  runRow (fun c => hasCode 0x30 c && byteAt c.body 3 != 1) false breakLoadFirst s

/-- Checks 4 to 7 of R109 on the record found, and the part.  DESIGN CHOICE (log entry 44): a
more-to-follow byte other than 0 and 1 (BAD_FIELD, R195) is judged with check 4, after NOT_FOUND and
STATE. -/
def continuationCheck (r : BreakRecord) (b : List Byte) (s : State) : Except ErrFlag LoadPart :=
  match parsePart b 5 with
  | none => .error .badField
  | some p =>
    let total := r.items.length + p.items.length
    if total > Config.breakItems ∨ (p.more = false ∧ total = 0) then .error .badField
    else if s.poolFree < p.items.length then .error .noRoom
    else if !s.allReady (p.items.map fun i => i.clip) then .error .notFound
    else if !s.allLong p.items then .error .badField
    else .ok p

/-- The items of a continuation joined to a record, with their holds (R109, R110). -/
def appendItems (c : Fin 4) (n : Nat) (p : LoadPart) (s : State) : State :=
  modRecord c n (fun r => { r with
    items := r.items ++ p.items, state := if p.more then r.state else .pending })
    (takeHolds (p.items.map fun i => i.clip) s)

/-- A continuation with a body of the right length (R109). -/
def loadContinuation (b : List Byte) (s : State) : Reply × State :=
  match channelOf (byteAt b 0) with
  | none => refuse .badField s
  | some c =>
    let n := field b 1 2
    if breakNumberAllowed n = false then refuse .badField s
    else match s.record c n with
      | none => refuse .notFound s
      | some r =>
        if r.state ≠ .loading then refuse .state s
        else match continuationCheck r b s with
          | .error f => refuse f s
          | .ok p => loadReply c n p.clamped (appendItems c n p s)

/-- BREAK_LOAD_CONTINUATION (R109). -/
def execBreakLoadContinuation (s : State) : Result :=
  runRow isContinuation false
    (fun c s => if c.body.length = continuationLength c.body then loadContinuation c.body s
      else refuse .badLength s) s

/-! ### BREAK_ABORT (R146) and BREAK_CANCEL (R113) -/

/-- The reply of an abort (R146, R198).  X of a withdrawn break is 0: the manual gives no value. -/
def abortReply (a : AbortAnswer) (s : State) : Reply × State :=
  match a with
  | .noFlight => refuse .state s
  | .withdrawn n => (.done false false (toBytes n 2 ++ [0] ++ toBytes 0 4), s)
  | .joining n x => (.done false false (toBytes n 2 ++ [1] ++ toBytes x.toNat 4), s)

/-- BREAK_ABORT's work. -/
def breakAbort (b : List Byte) (s : State) : Reply × State :=
  match channelOf (byteAt b 0) with
  | none => refuse .badField s
  | some c => abortReply (abortBreak c s).1 (abortBreak c s).2

/-- BREAK_ABORT (R146). -/
def execBreakAbort (s : State) : Result := runRow (hasCode 0x34) false (sized 1 breakAbort) s

/-- BREAK_CANCEL's work. -/
def breakCancel (b : List Byte) (s : State) : Reply × State :=
  match channelOf (byteAt b 0) with
  | none => refuse .badField s
  | some c =>
    let n := field b 1 2
    if breakNumberAllowed n = false then refuse .badField s
    else match s.record c n with
      | none => refuse .notFound s
      | some r =>
        if r.state.inFlight then abortReply (abortBreak c s).1 (abortBreak c s).2
        else accept (removeRecord c n s)

/-- BREAK_CANCEL (R113). -/
def execBreakCancel (s : State) : Result := runRow (hasCode 0x31) false (sized 3 breakCancel) s

/-! ### BREAK_LIST (R114) -/

/-- The records a BREAK_LIST returns whole: every record's summary, or one record's summary followed
by its items. -/
def listParts (s : State) (c : Fin 4) (n : Nat) : Option (List (List Byte)) :=
  if n = 0 then some (((s.ch c).queue.zipIdx 1).map fun p => summaryBytes p.2 p.1)
  else (s.record c n).map fun r => summaryBytes (s.place c n) r :: r.items.map itemBytes

/-- BREAK_LIST's work within a data limit. -/
def breakList (limit : Nat) (b : List Byte) (s : State) : Reply × State :=
  match channelOf (byteAt b 0) with
  | none => refuse .badField s
  | some c => match listParts s c (field b 1 2) with
    | none => refuse .notFound s
    | some parts =>
      let n := fitting (limit - 3) parts
      (.done false (decide (n < parts.length))
        (toBytes (s.ch c).queue.length 1 ++ toBytes s.poolFree 2 ++ (parts.take n).flatten), s)

/-- BREAK_LIST (R114). -/
def execBreakList (s : State) : Result :=
  runRow (hasCode 0x32) false (fun c => sized 3 (breakList (dataLimit c.header)) c) s

/-! ### BREAK_FIRE (R136) -/

/-- Checks 3 to 5 of R136: the record a fire request chooses. -/
def fireChoice (c : Fin 4) (n : Nat) (s : State) : Except ErrFlag BreakRecord :=
  if n = 0 then
    match (s.ch c).queue.find? BreakRecord.firable with
    | some r => .ok r
    | none => .error .notFound
  else match s.record c n with
    | none => .error .notFound
    | some r => if r.firable then .ok r else .error .state

/-- The reply of a granted fire: break number, S, D or its absence, X and the number of PLACED items
(R136, R198). -/
def fireReply (c : Fin 4) (n : Nat) (s : State) : List Byte :=
  match s.record c n with
  | none => []
  | some r =>
    let placed := match r.plan with
      | some p => p.placed.length
      | none => 0
    toBytes n 2 ++ acBytes r.start ++ acPresent r.deadline ++ acBytes r.ret ++ toBytes placed 1

/-- The reply of a fire whose plan is empty: the break number and 0 PLACED items; the other fields
are sent as 0, the manual giving them no value. -/
def emptyFireReply (n : Nat) : List Byte := toBytes n 2 ++ toBytes 0 14

/-- BREAK_FIRE's work. -/
def breakFire (b : List Byte) (s : State) : Reply × State :=
  match channelOf (byteAt b 0) with
  | none => refuse .badField s
  | some c =>
    if s.freeForBreak c = false then refuse .state s
    else match fireChoice c (field b 1 2) s with
      | .error f => refuse f s
      | .ok r => match fireRecord c r s with
        | (.granted, t) => (.done false false (fireReply c r.number t), t)
        | (.emptyPlan, t) => (.done false false (emptyFireReply r.number), t)
        | (.refused, t) => refuse .noVoice t

/-- BREAK_FIRE (R136). -/
def execBreakFire (s : State) : Result := runRow (hasCode 0x33) false (sized 3 breakFire) s

/-! ### VOICE_TRIM (R148) -/

/-- The stage request of VOICE_TRIM on one voice of the break, counting the voices that take it. -/
def trimVoice (level rate : Nat) (p : Nat × State) (v : Fin 16) : Nat × State :=
  let s := p.2
  let trim := match (s.voice v).clip with
    | some n => (s.entry n).trim
    | none => 0
  let r := stageVoice v (targetCode level trim) rate s
  (if r.1 then p.1 + 1 else p.1, r.2)

/-- VOICE_TRIM's work. -/
def voiceTrim (b : List Byte) (s : State) : Reply × State :=
  match channelOf (byteAt b 0) with
  | none => refuse .badField s
  | some c => match s.flight c with
    | none => refuse .state s
    | some r =>
      let level := clampCode (field b 1 2)
      let rate := clampField 1 255 (byteAt b 3)
      let t := r.voices.foldl (trimVoice level.1 rate.1) (0, s)
      (.done (level.2 || rate.2) false (toBytes t.1 1), t.2)

/-- VOICE_TRIM (R148). -/
def execVoiceTrim (s : State) : Result := runRow (hasCode 0x35) false (sized 4 voiceTrim) s

end Sys2Proof.Machine
end

