-- ==== Sys2Proof/Machine/ChannelCommands.lean ====
section
/-! DEFINITION. The commands of the channel mixers and the air clock: CHANNEL_SET (R65, R66),
CHANNEL_RESET (R83, R84), CLOCK_SET (R91, R92) and CART_FIRE (R80, R81). -/

namespace Sys2Proof.Machine

/-! ### CHANNEL_SET (R65, R66, R85) -/

/-- A channel's slots equal a slot of another enabled channel (check 5 of R65). -/
def State.slotsTaken (s : State) (c : Fin 4) (l r : Nat) : Bool :=
  allChannels.any fun d =>
    let x := (s.ch d).config
    d != c && x.enable && (x.slotL == l || x.slotL == r || x.slotR == l || x.slotR == r)

/-- Channel c owns a voice. -/
def State.ownsVoice (s : State) (c : Fin 4) : Bool := allVoices.any fun v => (s.voice v).ownedBy c

/-- Checks 2 to 6 of R65 for a channel in range. -/
def channelSetCheck (c : Fin 4) (e : ConfigEdit) (s : State) : Option ErrFlag :=
  let x := s.ch c
  let new := e.apply x.config
  if !e.known then some .badField
  else if x.state ≠ .halted ∧ x.state ≠ .network then some .state
  else if new.slotL = new.slotR then some .badField
  else if new.enable && s.slotsTaken c new.slotL new.slotR then some .badField
  else if x.config.enable && !new.enable && s.ownsVoice c then some .state
  else none

/-- The enable turned on in HALTED: NETWORK with the gain at 3840 (R66). -/
def enableChannel (c : Fin 4) (s : State) : State :=
  let x := s.ch c
  setChannelState c .network
    (s.setCh c { x with gain := Config.unityCode, gainTarget := Config.unityCode })

/-- The enable turned off in NETWORK: HALTED, with the monitor's counts and running peaks cleared
(R66, R153, R154). -/
def disableChannel (c : Fin 4) (s : State) : State :=
  let s := clearSilence c (setChannelState c .halted s)
  s.setMonitor c { s.mon c with recoveryCount := 0, peaks := none }

/-- An accepted CHANNEL_SET (R66). -/
def applyChannelSet (c : Fin 4) (e : ConfigEdit) (s : State) : State :=
  let x := s.ch c
  let new := e.apply x.config
  let s := s.setCh c { x with config := new }
  if new.enable && !x.config.enable then enableChannel c s
  else if x.config.enable && !new.enable then disableChannel c s
  else s

/-- The configuration reply (R198). -/
def configReply (c : Fin 4) (clamped : Bool) (s : State) : Reply × State :=
  (.done clamped false (toBytes c.val 1 ++ configBytes (s.ch c).config), s)

/-- CHANNEL_SET's work; with no field present it is answered in every state (R65, R85). -/
def channelSet (b : List Byte) (s : State) : Reply × State :=
  match channelOf (byteAt b 0) with
  | none => refuse .badField s
  | some c =>
    let e := configEdit b
    if e.presence = 0 then configReply c false s
    else match channelSetCheck c e s with
      | some f => refuse f s
      | none => configReply c (e.clamped (s.ch c).config) (applyChannelSet c e s)

/-- CHANNEL_SET (R65). -/
def execChannelSet (s : State) : Result := runRow (hasCode 0x10) false (sized 40 channelSet) s

/-! ### CHANNEL_RESET (R83, R84) -/

/-- CHANNEL_RESET's work. -/
def channelReset (b : List Byte) (s : State) : Reply × State :=
  match channelOf (byteAt b 0) with
  | none => refuse .badField s
  | some c => accept (resetChannel c s)

/-- CHANNEL_RESET (R83). -/
def execChannelReset (s : State) : Result := runRow (hasCode 0x11) false (sized 1 channelReset) s

/-! ### CLOCK_SET (R91, R92) -/

/-- The moments a channel holds for airings in progress, moved by d: cart and emergency start ACs
(R92), and the first frame of the running peaks (DEDUCED from R158). -/
def Channel.shift (d : AC) (x : Channel) : Channel :=
  { x with
    carts := x.carts.map fun r => { r with startAC := r.startAC.map fun a => a + d }
    monitor := { x.monitor with
      emRecord := x.monitor.emRecord.map fun r =>
        { r with startAC := r.startAC.map fun a => a + d }
      peaks := x.monitor.peaks.map fun p => { p with first := p.first + d } } }

/-- The carrying ACs of the transit and of the last frame delivered, moved by d (R13, R92). -/
def Egress.shift (d : AC) (t : Egress) : Egress :=
  { t with
    transit := t.transit.map fun f => { f with carrying := f.carrying + d }
    lastCarrying := t.lastCarrying.map fun a => a + d }

/-- The reference frames of routed packets and the assembly deadline, moved by d (R13, R180). -/
def CommandUnit.shift (d : AC) (u : CommandUnit) : CommandUnit :=
  { u with
    inbox := u.inbox.map fun r => { r with ref := r.ref + d }
    assembly := u.assembly.map fun a => { a with deadline := a.deadline + d } }

/-- The air clock moved by d, with a valid time-mark capture (R91, R92). -/
def AirClock.shift (d : AC) (k : AirClock) : AirClock :=
  { k with ac := k.ac + d, mark := if k.mark.valid then { k.mark with ac := k.mark.ac + d } else k.mark }

/-- Every moment of R92 moved by d.  DESIGN CHOICE (log entry 43): where a row has already begun the
next frame, what it decided under the AC before the change stays, and the frame carries the shifted
AC. -/
def shiftClock (d : AC) (s : State) : State :=
  let s := (voiceShift d s).setClock (s.clock.shift d)
  let s := s.setStore (storeShift d s.store)
  let s := s.setChans (s.chans.map (Channel.shift d))
  let s := s.setTx (s.tx.shift d)
  s.setCmd (s.cmd.shift d)

/-- CLOCK_SET's work (R91). -/
def clockSet (b : List Byte) (s : State) : Reply × State :=
  if allChannels.any (fun c => (s.ch c).state.onAir) then refuse .state s
  else
    let t := shiftClock (acField b 0) s
    (.done false false (toBytes s.clock.ac.toNat 4 ++ toBytes t.clock.ac.toNat 4), t)

/-- CLOCK_SET (R91). -/
def execClockSet (s : State) : Result := runRow (hasCode 0x12) false (sized 4 clockSet) s

/-! ### CART_FIRE (R80, R81) -/

/-- CART_FIRE's work. -/
def cartFire (b : List Byte) (s : State) : Reply × State :=
  match channelOf (byteAt b 0) with
  | none => refuse .badField s
  | some c =>
    if field b 1 2 > 1023 then refuse .badField s
    else
      let level := clampCode (field b 3 2)
      match requestCart c (field b 1 2) level.1 s with
      | (.error f, s) => refuse f s
      | (.ok (v, start), s) =>
        (.done level.2 false (toBytes v.val 1 ++ toBytes start.toNat 4), s)

/-- CART_FIRE (R80). -/
def execCartFire (s : State) : Result := runRow (hasCode 0x36) false (sized 5 cartFire) s

end Sys2Proof.Machine
end

