-- ==== Sys2Proof/Machine/ContactCommands.lean ====
section
/-! DEFINITION. The commands of the contact unit: GPI_SET (R164) and GPO_SET (R165). -/

namespace Sys2Proof.Machine

/-- The GPI line a number names, if there is one. -/
def gpiLineOf (n : Nat) : Option (Fin 8) := if h : n < 8 then some ⟨n, h⟩ else none

/-- GPI_SET's work; line 0xFF names no line (R164). -/
def gpiSet (b : List Byte) (s : State) : Reply × State :=
  let line := byteAt b 0
  if line = 0xFF then (.done false false (gpiTable s), s)
  else match gpiLineOf line, gpiFunctionOf (byteAt b 1) (byteAt b 2) (field b 3 2) (field b 5 2) with
    | some g, some (fn, clamped) =>
      let s := s.setGpiLine g { s.gpiLine g with fn := fn }
      (.done clamped false (gpiTable s), s)
    | _, _ => refuse .badField s

/-- GPI_SET (R164). -/
def execGpiSet (s : State) : Result := runRow (hasCode 0x40) false (sized 7 gpiSet) s

/-- GPO_SET's work; line 0xFF names no line (R165). -/
def gpoSet (b : List Byte) (s : State) : Reply × State :=
  let line := byteAt b 0
  if line = 0xFF then (.done false false (gpoTable s), s)
  else match channelOf line, gpoFunctionOf (byteAt b 1) (byteAt b 2) with
    | some g, some fn =>
      let s := s.setGpo (s.gpo.set g.val fn)
      (.done false false (gpoTable s), s)
    | _, _ => refuse .badField s

/-- GPO_SET (R165). -/
def execGpoSet (s : State) : Result := runRow (hasCode 0x41) false (sized 3 gpoSet) s

end Sys2Proof.Machine
end

