-- ==== Sys2Proof/Machine/LaneSteps.lean ====
section
/-! DEFINITION. The steps that take a routed packet: the six cue rows (sections 5.3, 5.4), COMMAND and
COMMAND_MORE (section 11.1), and REPLY_PACKET_QUEUED (R184).  A step whose packet is not at the front
leaves the state as it is. -/

namespace Sys2Proof.Machine

/-- The oldest routed packet, when a test holds of it. -/
def State.oldestRouted (s : State) (test : Routed → Bool) : Option Routed :=
  match s.cmd.inbox with
  | [] => none
  | r :: _ => if test r then some r else none

/-- A row that takes the oldest routed packet when a test holds of it. -/
def takeRow (test : Routed → Bool) (f : Routed → State → State) (s : State) : Result :=
  match s.oldestRouted test with
  | none => .next s
  | some r => .next (f r (popRouted (settle s)))

/-- The packet is a cue of a kind (R197). -/
def isCue (k : CueKind) (r : Routed) : Bool := r.route == .cue && cueKind r.payload == k

/-- OPEN (R94, R95). -/
def execOpen (s : State) : Result :=
  takeRow (isCue .openCue) (fun r s => decodeOpen r.payload r.ref (countCue s)) s

/-- CLOSE (R96). -/
def execClose (s : State) : Result :=
  takeRow (isCue .closeCue) (fun r s => decodeClose r.payload r.ref (countCue s)) s

/-- RECORD_START (R97). -/
def execRecordStart (s : State) : Result :=
  takeRow (isCue .recordStart) (fun r s => decodeRecordStart r.payload r.ref (countCue s)) s

/-- RECORD_STOP (R98). -/
def execRecordStop (s : State) : Result :=
  takeRow (isCue .recordStop) (fun r s => decodeRecordStop r.payload r.ref (countCue s)) s

/-- TIME_MARK (R99). -/
def execTimeMark (s : State) : Result :=
  takeRow (isCue .timeMark) (fun r s => decodeTimeMark r.payload r.ref (countCue s)) s

/-- UNKNOWN_CUE (R93). -/
def execUnknownCue (s : State) : Result :=
  takeRow (isCue .unknown) (fun r s => decodeUnknown r.payload (countCue s)) s

/-- COMMAND (R178, R179, R181). -/
def execCommand (s : State) : Result := takeRow (fun r => r.route == .command) takeCommand s

/-- COMMAND_MORE (R179). -/
def execCommandMore (s : State) : Result :=
  takeRow (fun r => r.route == .commandMore) takeMore s

/-- REPLY_PACKET_QUEUED (R184). -/
def execReplyPacketQueued (s : State) : Result := .next (queueReply s)

end Sys2Proof.Machine
end

