-- ==== Sys2Proof/Machine/StoreCommands.lean ====
section
/-! DEFINITION. The commands of the clip store (chapter 2): DIR_READ, DIR_WRITE, DIR_ERASE,
INGEST_ARM, INGEST_STOP and RING_RETIRE. -/

namespace Sys2Proof.Machine

/-! ### DIR_READ (R37) -/

/-- DIR_READ's work within a data limit.  DESIGN CHOICE (log entry 57): a count that reaches past 1023 is
cut there first, and TRUNCATED is set only when fewer entries fit than that cut count. -/
def dirRead (limit : Nat) (b : List Byte) (s : State) : Reply × State :=
  let first := field b 0 2
  let count := field b 2 2
  if first > 1023 ∨ count = 0 then refuse .badField s
  else
    let asked := min count (Config.dirEntries - first)
    let parts := (List.range' first asked).map fun n => entryBytes n (s.entry n)
    let n := fitting (limit - 4) parts
    (.done false (decide (n < asked)) (toBytes first 2 ++ toBytes n 2 ++ (parts.take n).flatten), s)

/-- DIR_READ (R37). -/
def execDirRead (s : State) : Result :=
  runRow (hasCode 0x20) false (fun c => sized 4 (dirRead (dataLimit c.header)) c) s

/-! ### DIR_WRITE (R35) -/

/-- The loop points a DIR_WRITE gives: none where R35 or R195 refuses them. -/
def loopEdit (length : Nat) (b : List Byte) : Option (Option (Nat × Nat)) :=
  match flagOf (byteAt b 5) with
  | none => none
  | some false => some none
  | some true =>
    let a := field b 6 4
    let z := field b 10 4
    if a < z ∧ z ≤ length ∧ z - a ≥ 32 then some (some (a, z)) else none

/-- A trim put into −1024..+255 (R35). -/
def clampTrim (t : Int) : Int := max (-1024) (min 255 t)

/-- The entry after the edits present in a DIR_WRITE body, and whether the trim was clamped; none
where the loop points are refused (R35).  Presence bits above bit 3 name no edit and are ignored
(DESIGN CHOICE). -/
def dirEdit (e : DirEntry) (b : List Byte) : Option (DirEntry × Bool) :=
  let p := byteAt b 2
  let trim := signedField b 3 2
  let loop := if p.testBit 1 then loopEdit e.length b else some e.loop
  loop.map fun l => ({ e with
    trim := if p.testBit 0 then clampTrim trim else e.trim
    loop := l
    spotKey := if p.testBit 2 then acField b 14 else e.spotKey
    label := if p.testBit 3 then Vector.ofFn fun i : Fin 16 => b.getD (18 + i.val) 0 else e.label },
    p.testBit 0 && clampTrim trim != trim)

/-- Why an entry may not be edited or erased: EMPTY, ARMED or FILLING, or held (R35, R36). -/
def entryBlocked (e : DirEntry) : Option ErrFlag :=
  match e.state with
  | .empty => some .notFound
  | .armed | .filling => some .state
  | .ready => if e.hold > 0 then some .held else none

/-- DIR_WRITE's work.  DESIGN CHOICE (log entry 37): the entry is judged before the loop points and the
loop-present byte; R35 gives its checks no order. -/
def dirWrite (b : List Byte) (s : State) : Reply × State :=
  let n := field b 0 2
  if n > 1023 then refuse .badField s
  else match entryBlocked (s.entry n) with
    | some f => refuse f s
    | none => match dirEdit (s.entry n) b with
      | none => refuse .badField s
      | some (e, clamped) => (.done clamped false [], s.setEntry n e)

/-- DIR_WRITE (R35). -/
def execDirWrite (s : State) : Result := runRow (hasCode 0x21) false (sized 34 dirWrite) s

/-! ### DIR_ERASE (R36) -/

/-- DIR_ERASE's work.  DESIGN CHOICE (log entry 36): a ring clip that is both held and not the oldest
answers HELD; R36 gives its checks no order. -/
def dirErase (b : List Byte) (s : State) : Reply × State :=
  let n := field b 0 2
  if n > 1023 then refuse .badField s
  else match entryBlocked (s.entry n) with
    | some f => refuse f s
    | none => match (s.entry n).region with
      | .library => accept (emptyEntry n s)
      | .ring =>
        if s.store.ringList.head? = some n then accept (retireOldest s) else refuse .state s

/-- DIR_ERASE (R36). -/
def execDirErase (s : State) : Result := runRow (hasCode 0x22) false (sized 2 dirErase) s

/-! ### INGEST_ARM (R24, R25) -/

/-- The fields of an INGEST_ARM with known values (check 3 of R24). -/
structure ArmFields where
  arm       : Arm
  region    : Region
  firstPage : Nat
  layout    : Layout
  rate      : RateClass
  spotKey   : BitVec 32
  now       : Bool
  deriving DecidableEq, Repr

/-- Check 3 of R24 on a body: clip 2, region 1, first page 2, first slot 1, width 1, layout 1, rate
class 2, spot key 4, limit 4, start mode 1 (R198). -/
def armFields (b : List Byte) : Option ArmFields :=
  let slot := byteAt b 5
  let w := byteAt b 6
  let limit := field b 14 4
  match regionOf (byteAt b 2), layoutOf (byteAt b 7), rateOf (field b 8 2), flagOf (byteAt b 18) with
  | some region, some layout, some rate, some cue =>
    if slot > 15 ∨ w < 1 ∨ w > 8 ∨ slot + w > 16 ∨ (layout = .stereo ∧ w % 2 = 1)
        ∨ limit > 2 ^ 28 then none
    else some ⟨⟨field b 0 2, slot, w, limit⟩, region, field b 3 2, layout, rate, acField b 10, !cue⟩
  | _, _, _, _ => none

/-- The span of a library arm (section 2.4). -/
def ArmFields.span (f : ArmFields) (lp : Nat) : Span := armSpan lp f.firstPage f.arm.limit

/-- The READY library clips with pages in the span (R24, R25). -/
def State.clipsInSpan (s : State) (sp : Span) : List (Nat × DirEntry) :=
  s.store.directory.filter (clipInSpan sp)

/-- Checks 4 to 11 of R24. -/
def armCheck (f : ArmFields) (s : State) : Option ErrFlag :=
  let lib := f.region == .library
  let sp := f.span s.store.lp
  if lib && decide (s.store.lp ≤ f.firstPage) then some .badField
  else if !lib && s.store.ringPages == 0 then some .noRoom
  else if f.now && s.store.engine.isSome then some .busy
  else if f.now && !s.locked then some .link
  else if f.now && !lib && s.store.ringFull then some .noRoom
  else if !f.now && decide (Config.armEntries ≤ s.store.armList.length) then some .noRoom
  else if lib && s.reservedSpans.any (fun r => r.overlaps sp) then some .state
  else if lib && (s.clipsInSpan sp).any (fun p => decide (p.2.hold > 0)) then some .held
  else none

/-- The entry an accepted arm fills (R25). -/
def ArmFields.entry (f : ArmFields) : DirEntry :=
  { DirEntry.blank with
    state := if f.now then .filling else .armed
    region := f.region
    firstPage := if f.region = .library then f.firstPage else 0
    layout := f.layout
    rate := f.rate
    spotKey := f.spotKey }

/-- An accepted INGEST_ARM (R25, R26). -/
def applyArm (f : ArmFields) (s : State) : State :=
  let emptied := if f.region = .library then (s.clipsInSpan (f.span s.store.lp)).map fun p => p.1
    else []
  let s := emptied.foldl (fun t n => emptyEntry n t) s
  let s := s.setEntry f.arm.clip f.entry
  if f.now then startIngest f.arm none s
  else s.setStore { s.store with armList := s.store.armList ++ [f.arm] }

/-- INGEST_ARM's work (R24). -/
def ingestArm (b : List Byte) (s : State) : Reply × State :=
  let n := field b 0 2
  if n > 1023 then refuse .badField s
  else if (s.entry n).state ≠ .empty then refuse .state s
  else match armFields b with
    | none => refuse .badField s
    | some f => match armCheck f s with
      | some e => refuse e s
      | none => accept (applyArm f s)

/-- INGEST_ARM (R24). -/
def execIngestArm (s : State) : Result := runRow (hasCode 0x23) false (sized 19 ingestArm) s

/-! ### INGEST_STOP (R30) -/

/-- An ARMED entry is disarmed (R30). -/
def disarm (n : Nat) (s : State) : State :=
  let s := s.setStore { s.store with armList := s.store.armList.filter fun a => a.clip != n }
  emptyEntry n s

/-- INGEST_STOP's work (R30). -/
def ingestStop (b : List Byte) (s : State) : Reply × State :=
  let n := field b 0 2
  if n > 1023 then refuse .badField s
  else match (s.entry n).state with
    | .filling =>
      let s := endIngest .commandStop s
      let r := s.store.lastReport
      (.done false false (toBytes r.outcome.code 1 ++ toBytes r.length 4), s)
    | .armed => accept (disarm n s)
    | .empty => refuse .notFound s
    | .ready => refuse .state s

/-- INGEST_STOP (R30). -/
def execIngestStop (s : State) : Result := runRow (hasCode 0x24) false (sized 2 ingestStop) s

/-! ### RING_RETIRE (R34) -/

/-- RING_RETIRE's work. -/
def ringRetire (b : List Byte) (s : State) : Reply × State :=
  let n := clampField 0 1024 (field b 0 2)
  let r := retire n.1 s
  (.done n.2 false (toBytes r.1 2), r.2)

/-- RING_RETIRE (R34). -/
def execRingRetire (s : State) : Result := runRow (hasCode 0x25) false (sized 2 ringRetire) s

end Sys2Proof.Machine
end

