-- ==== Sys2Proof/Machine/TrunkSteps.lean ====
section
/-! DEFINITION. The steps of the trunk: POWER_ON_RESET, SYNC_FOUND, VERIFY_FRAME, INGRESS_FRAME, the
ends of an ingest, and the three ways an egress frame is sent.  A step that is not due leaves the
state as it is. -/

namespace Sys2Proof.Machine

/-- The unit address a strap value gives (R12). -/
def strapAddress (straps : Byte) : Byte :=
  if 1 ≤ straps.toNat ∧ straps.toNat ≤ 239 then straps else 0

/-- Every block in its power-on state, with the straps sampled; the waiting commands stay (R18, R39,
R63, R86, R101, R116, R152, R167, R176, R194), and so does the number of free values
drawn (log entry 46). -/
def powerOnState (straps : Byte) (s : State) : State :=
  { State.reset with
    lane := { State.reset.lane with straps := straps, unitAddr := strapAddress straps }
    cmd := { State.reset.cmd with draws := s.cmd.draws }
    pending := s.pending }

/-- POWER_ON_RESET: the power-on state, and the first egress frame, sent in HOLDOVER when reset is
released (R18). -/
def execPowerOnReset (straps gpi : Byte) (s : State) : Result :=
  .next (holdoverFrame gpi (powerOnState straps s))

/-- SYNC_FOUND (R3): one ingress byte examined in SEARCH. -/
def execSyncFound (b : Byte) (s : State) : Result :=
  .next (if s.rx.lock = .search then searchByte b s else s)

/-- VERIFY_FRAME (R4). -/
def execVerifyFrame (b0 b1 : Byte) (s : State) : Result :=
  .next (if s.rx.lock = .verify then verifyBytes b0 b1 (settle s) else s)

/-- INGRESS_FRAME (R1): taken in LOCKED; frames of SEARCH and VERIFY are not delivered. -/
def execIngressFrame (f : TrunkFrame) (formedSince : Nat) (s : State) : Result :=
  if formedSince ≤ 2 then
    .next (if s.frameTaken then lockedFrame f formedSince (takeAllRouted (settle s)) else s)
  else .fault .noSuchLag

/-- The ingest has reached this end (R31, R29). -/
def State.endingIs (s : State) (o : IngestOutcome) : Bool :=
  match s.store.engine with
  | some g => g.ending == some o
  | none => false

/-- INGEST_LIMIT (R31). -/
def execIngestLimit (s : State) : Result :=
  .next (if s.endingIs .limit then settleIngest s else s)

/-- INGEST_REGION_END (R31). -/
def execIngestRegionEnd (s : State) : Result :=
  .next (if s.endingIs .regionEnd then settleIngest s else s)

/-- INGEST_CUE_STOP (R29). -/
def execIngestCueStop (s : State) : Result :=
  .next (if s.endingIs .cueStop then settleIngest s else s)

/-- EGRESS_FRAME_FOLLOW (R7): due while the transit holds a frame. -/
def execEgressFrameFollow (gpi : Byte) (s : State) : Result := .next (followFrame gpi s)

/-- HOLDOVER_PERIOD_EXPIRY (R8): due in HOLDOVER once the first HOLDOVER frame has been sent. -/
def execHoldoverPeriodExpiry (gpi : Byte) (s : State) : Result :=
  .next (if s.tx.mode = .holdover ∧ s.tx.awaitFirst = false then holdoverFrame gpi s else s)

/-- FIRST_HOLDOVER_FRAME (R8, R18). -/
def execFirstHoldoverFrame (gpi : Byte) (s : State) : Result :=
  .next (if s.tx.awaitFirst then holdoverFrame gpi s else s)

end Sys2Proof.Machine
end

