-- ==== Sys2Proof/Machine/UnitCommands.lean ====
section
/-! DEFINITION. The unit commands (section 11.3) and the alert commands (R192, R193): UNKNOWN_COMMAND,
IDENTIFY, UNIT_SET, DEVICE_RESET, STATUS_READ, ALERT_SET and ALERT_CLEAR. -/

namespace Sys2Proof.Machine

/-- UNKNOWN_COMMAND (R182): a code that names no command. -/
def execUnknownCommand (s : State) : Result :=
  runRow (fun c => !knownCodes.contains c.header.code) false
    (fun _ s => refuse .unknownCommand s) s

/-! ### IDENTIFY (R186) -/

/-- The identity record, 16 bytes (R186, R198). -/
def identityRecord (s : State) : List Byte :=
  [0x52, 0x41, 0x2D, 0x34, 0x31, 0x36, 0x01, s.lane.straps, s.lane.unitAddr, s.lane.groupAddr]
    ++ toBytes Config.dirEntries 2 ++ [16, 4] ++ toBytes Config.asrunRecords 2

/-- IDENTIFY's work. -/
def identify (_ : List Byte) (s : State) : Reply × State :=
  (.done false false (identityRecord s), s)

/-- IDENTIFY (R186). -/
def execIdentify (s : State) : Result := runRow (hasCode 0x01) false (sized 0 identify) s

/-! ### UNIT_SET (R187) -/

/-- The five settings as UNIT_SET carries them: an absent one is `none`. -/
structure UnitEdit where
  unitAddr  : Option Nat
  groupAddr : Option Nat
  holdover  : Option Nat
  lp        : Option Nat
  reserve   : Option Nat
  deriving DecidableEq, Repr

/-- A value present under a presence bit. -/
def presentIf (presence i x : Nat) : Option Nat := if presence.testBit i then some x else none

/-- The edit of a UNIT_SET body (R198).  Presence bits above bit 4 name no setting and are ignored
(DESIGN CHOICE). -/
def unitEdit (b : List Byte) : UnitEdit :=
  let p := byteAt b 0
  ⟨presentIf p 0 (byteAt b 1), presentIf p 1 (byteAt b 2), presentIf p 2 (field b 3 2),
    presentIf p 3 (field b 5 2), presentIf p 4 (byteAt b 7)⟩

/-- Every entry is EMPTY, as a change of Lp needs (R20). -/
def State.allEmpty (s : State) : Bool := s.store.directory.all fun p => p.2.state == .empty

/-- A group address that may be set. -/
def groupAllowed (g : Nat) : Bool := g == 0 || (decide (240 ≤ g) && decide (g ≤ 254))

/-- The checks of R187, in order. -/
def UnitEdit.check (e : UnitEdit) (s : State) : Option ErrFlag :=
  if e.unitAddr.any (fun a => decide (a > 239)) then some .badField
  else if e.groupAddr.any (fun g => !groupAllowed g) then some .badField
  else if e.lp.any (fun n => decide (n > 4096)) then some .badField
  else if e.lp.isSome && !s.allEmpty then some .state
  else none

/-- The library size changed, with both ring pointers (R20). -/
def setLibrary (lp : Nat) (s : State) : State :=
  s.setStore { s.store with lp := lp, currentPage := lp, boundaryPage := lp }

/-- The settings present applied (R187, R9, R12, R20, R46). -/
def UnitEdit.apply (e : UnitEdit) (s : State) : State :=
  let s := s.setLane { s.lane with
    unitAddr := (e.unitAddr.map (BitVec.ofNat 8)).getD s.lane.unitAddr
    groupAddr := (e.groupAddr.map (BitVec.ofNat 8)).getD s.lane.groupAddr }
  let s := s.setTx { s.tx with holdover := (e.holdover.map (clampNat 508 516)).getD s.tx.holdover }
  let s := match e.lp with
    | some lp => setLibrary lp s
    | none => s
  s.setReserve ((e.reserve.map fun k => min k 8).getD s.reserve)

/-- A holdover period or reserve was clamped (R187). -/
def UnitEdit.clamped (e : UnitEdit) : Bool :=
  e.holdover.any (fun h => clampNat 508 516 h != h) || e.reserve.any (fun k => decide (k > 8))

/-- The five settings as they stand (R187, R198). -/
def unitSettings (s : State) : List Byte :=
  [s.lane.unitAddr, s.lane.groupAddr] ++ toBytes s.tx.holdover 2 ++ toBytes s.store.lp 2
    ++ toBytes s.reserve 1

/-- UNIT_SET's work. -/
def unitSet (b : List Byte) (s : State) : Reply × State :=
  let e := unitEdit b
  match e.check s with
  | some f => refuse f s
  | none =>
    let s := e.apply s
    (.done e.clamped false (unitSettings s), s)

/-- UNIT_SET (R187). -/
def execUnitSet (s : State) : Result := runRow (hasCode 0x02) false (sized 8 unitSet) s

/-! ### DEVICE_RESET (R188) -/

/-- Steps 2 to 4 of R188: the command queue, the assembly and the alert state. -/
def resetCommandUnit (s : State) : State :=
  let s := s.setCmd { s.cmd with queue := [], assembly := none }
  s.setAlert { s.alert with pending := false, changed := 0, lockCount := 0, ready := none }

/-- The counts DEVICE_RESET sets to 0 on a channel after R83 and R84 (R86, R152, R167). -/
def zeroChannelCounts (c : Fin 4) (s : State) : State :=
  let x := s.ch c
  s.setCh c { x with
    saturation := 0, cartRefusals := 0, fireRefusals := 0
    monitor := { x.monitor with refusals := 0 } }

/-- The link counters and the SYNC_SLIP latch at 0 (R17, R18). -/
def clearLinkCounters (s : State) : State :=
  let s := s.setRx { s.rx with syncMiss := 0, checkFail := 0, lockLoss := 0, syncSlip := false }
  let s := s.setLane { s.lane with
    stray := 0, headerError := 0, badCheck := 0, misdirected := 0, unknownKind := 0, broken := 0 }
  s.setTx { s.tx with timingSlip := 0, fifoOverflow := 0 }

/-- The cue counters at 0 (R100, R101). -/
def clearCueCounters (s : State) : State := s.setCues .zero

/-- The report drop count at 0. -/
def clearReportDrops (s : State) : State := s.setCmd { s.cmd with reportDrops := 0 }

/-- Step 5 of R188: the work of every block. -/
def resetBlocks (s : State) : State :=
  let s := forChannels resetChannel s
  let s := forChannels zeroChannelCounts s
  clearCueCounters (clearLinkCounters (storeDeviceReset s))

/-- Steps 2 to 5 of R188. -/
def resetUnit (s : State) : State := clearReportDrops (resetBlocks (resetCommandUnit s))

/-- The reset taken while a cue is being decoded: the channels already visited have their work handed
on, and the others are visited after the reset (R101). -/
def resetAround (visited : Nat) (s : State) : State :=
  match s.cueBegun visited with
  | none => resetUnit s
  | some (l, f) =>
    visitAll f (l.drop visited) (resetUnit (visitAll f (l.take visited) (countCue (popRouted s))))

/-- DEVICE_RESET's work; its reply is made first and without condition (R188).  How far the cue being
decoded has come is a free value (R101; DESIGN CHOICE, log entry 46). -/
def deviceReset (_ : List Byte) (s : State) : Reply × State :=
  (.done false false [], resetAround (Config.cueVisited s.cmd.draws) (drawFree s))

/-- DEVICE_RESET (R188). -/
def execDeviceReset (s : State) : Result :=
  runRow (hasCode 0x03) true (sized 0 deviceReset) s

/-! ### STATUS_READ (R189) -/

/-- The clear flag's work on a channel's counts (R85, R152, R166). -/
def clearChannelCounts (c : Fin 4) (s : State) : State := zeroChannelCounts c s

/-- The clear flag's work on section number i, from 1 (R189). -/
def clearSection (i : Nat) (s : State) : State :=
  match i with
  | 1 => clearLinkCounters s
  | 2 => clearReportDrops (clearCueCounters s)
  | 3 => s.setStore { s.store with lastReport := .initial }
  | 4 => clearChannelCounts 0 s
  | 5 => clearChannelCounts 1 s
  | 6 => clearChannelCounts 2 s
  | 7 => clearChannelCounts 3 s
  | _ => s

/-- The clear flag's work on the first n sections. -/
def clearSections : Nat → State → State
  | 0, s => s
  | n + 1, s => clearSection (n + 1) (clearSections n s)

/-- STATUS_READ's work within a data limit (R189, R202). -/
def statusRead (limit : Nat) (b : List Byte) (s : State) : Reply × State :=
  match flagOf (byteAt b 0) with
  | none => refuse .badField s
  | some clear =>
    let parts := statusSections s
    let n := fitting limit parts
    (.done false (decide (n < parts.length)) (parts.take n).flatten,
      if clear then clearSections n s else s)

/-- STATUS_READ (R189). -/
def execStatusRead (s : State) : Result :=
  runRow (hasCode 0x04) false (fun c => sized 1 (statusRead (dataLimit c.header)) c) s

/-! ### ALERT_SET and ALERT_CLEAR (R192, R193) -/

/-- ALERT_SET's work (R193). -/
def alertSet (b : List Byte) (s : State) : Reply × State :=
  let mask := field b 0 4
  let dest := byteAt b 4
  if 2 ^ 28 ≤ mask ∨ (mask ≠ 0 ∧ dest = 0) then refuse .badField s
  else
    let s := s.setAlert { s.alert with mask := BitVec.ofNat 32 mask, dest := BitVec.ofNat 8 dest }
    (.done false false (toBytes s.alert.mask.toNat 4 ++ [s.alert.dest]), s)

/-- ALERT_SET (R193). -/
def execAlertSet (s : State) : Result := runRow (hasCode 0x05) false (sized 5 alertSet) s

/-- ALERT_CLEAR's work (R192). -/
def alertClear (_ : List Byte) (s : State) : Reply × State :=
  let r := clearAlert s
  (.done false false [flagByte r.1, flagByte r.2.alert.pending], r.2)

/-- ALERT_CLEAR (R192). -/
def execAlertClear (s : State) : Result := runRow (hasCode 0x06) false (sized 0 alertClear) s

end Sys2Proof.Machine
end

