-- ==== Sys2Proof/Machine/Dispatch.lean ====
section
/-! DEFINITION. The meaning of every row, one arm per constructor of Instr. -/

namespace Sys2Proof.Machine

def exec (i : Instr) (s : State) : Host.Outcome State Fault Refusal :=
  match i with
  | .powerOnReset straps gpi => Sys2Proof.Machine.execPowerOnReset straps gpi s
  | .syncFound b => Sys2Proof.Machine.execSyncFound b s
  | .verifyFrame b0 b1 => Sys2Proof.Machine.execVerifyFrame b0 b1 s
  | .ingressFrame f formedSince => Sys2Proof.Machine.execIngressFrame f formedSince s
  | .ingestLimit => Sys2Proof.Machine.execIngestLimit s
  | .ingestRegionEnd => Sys2Proof.Machine.execIngestRegionEnd s
  | .ingestCueStop => Sys2Proof.Machine.execIngestCueStop s
  | .egressFrameFollow gpi => Sys2Proof.Machine.execEgressFrameFollow gpi s
  | .holdoverPeriodExpiry gpi => Sys2Proof.Machine.execHoldoverPeriodExpiry gpi s
  | .silenceLimitReached c => Sys2Proof.Machine.execSilenceLimitReached c s
  | .recoveryLimitReached c => Sys2Proof.Machine.execRecoveryLimitReached c s
  | .voiceStart v => Sys2Proof.Machine.execVoiceStart v s
  | .voiceEnd v => Sys2Proof.Machine.execVoiceEnd v s
  | .voiceFaded v => Sys2Proof.Machine.execVoiceFaded v s
  | .voiceEventDelivery => Sys2Proof.Machine.execVoiceEventDelivery s
  | .breakOpen c => Sys2Proof.Machine.execBreakOpen c s
  | .join c => Sys2Proof.Machine.execJoin c s
  | .breakExpiry c n => Sys2Proof.Machine.execBreakExpiry c n s
  | .timeTrigger c => Sys2Proof.Machine.execTimeTrigger c s
  | .assemblyTimeout => Sys2Proof.Machine.execAssemblyTimeout s
  | .gpiLevelChange gpi => Sys2Proof.Machine.execGpiLevelChange gpi s
  | .openCue => Sys2Proof.Machine.execOpen s
  | .closeCue => Sys2Proof.Machine.execClose s
  | .recordStart => Sys2Proof.Machine.execRecordStart s
  | .recordStop => Sys2Proof.Machine.execRecordStop s
  | .timeMark => Sys2Proof.Machine.execTimeMark s
  | .unknownCue => Sys2Proof.Machine.execUnknownCue s
  | .command => Sys2Proof.Machine.execCommand s
  | .commandMore => Sys2Proof.Machine.execCommandMore s
  | .replyPacketQueued => Sys2Proof.Machine.execReplyPacketQueued s
  | .unknownCommand => Sys2Proof.Machine.execUnknownCommand s
  | .identify => Sys2Proof.Machine.execIdentify s
  | .unitSet => Sys2Proof.Machine.execUnitSet s
  | .deviceReset => Sys2Proof.Machine.execDeviceReset s
  | .statusRead => Sys2Proof.Machine.execStatusRead s
  | .alertSet => Sys2Proof.Machine.execAlertSet s
  | .alertClear => Sys2Proof.Machine.execAlertClear s
  | .channelSet => Sys2Proof.Machine.execChannelSet s
  | .channelReset => Sys2Proof.Machine.execChannelReset s
  | .clockSet => Sys2Proof.Machine.execClockSet s
  | .dirRead => Sys2Proof.Machine.execDirRead s
  | .dirWrite => Sys2Proof.Machine.execDirWrite s
  | .dirErase => Sys2Proof.Machine.execDirErase s
  | .ingestArm => Sys2Proof.Machine.execIngestArm s
  | .ingestStop => Sys2Proof.Machine.execIngestStop s
  | .ringRetire => Sys2Proof.Machine.execRingRetire s
  | .breakLoadFirstPart => Sys2Proof.Machine.execBreakLoadFirstPart s
  | .breakLoadContinuation => Sys2Proof.Machine.execBreakLoadContinuation s
  | .breakCancel => Sys2Proof.Machine.execBreakCancel s
  | .breakList => Sys2Proof.Machine.execBreakList s
  | .breakFire => Sys2Proof.Machine.execBreakFire s
  | .breakAbort => Sys2Proof.Machine.execBreakAbort s
  | .voiceTrim => Sys2Proof.Machine.execVoiceTrim s
  | .cartFire => Sys2Proof.Machine.execCartFire s
  | .gpiSet => Sys2Proof.Machine.execGpiSet s
  | .gpoSet => Sys2Proof.Machine.execGpoSet s
  | .asrunFetch => Sys2Proof.Machine.execAsrunFetch s
  | .asrunDiscard => Sys2Proof.Machine.execAsrunDiscard s
  | .firstHoldoverFrame gpi => Sys2Proof.Machine.execFirstHoldoverFrame gpi s

end Sys2Proof.Machine
end

