-- ==== Sys2Proof/Safety.lean ====
section
/-! DEFINITION. What the statements about the machine call a settled, a bounded and a well-formed
state. -/

namespace Sys2Proof.Machine

/-- No ingest has reached an end that is still to be carried out (R29, R31). -/
def Store.noEnding (st : Store) : Bool :=
  match st.engine with
  | some g => g.ending.isNone
  | none => true

/-- No step that follows a frame at once is still due: no end of an ingest (R29, R31), no SILENCE
level becoming active (R154), no start of a recovery (R159). -/
def State.settled (s : State) : Bool :=
  s.store.noEnding && allChannels.all fun c => !s.silenceDue c && !s.recoveryDue c

/-- Clip memory and the directory stand in their canonical form. -/
abbrev State.formed (s : State) : Prop :=
  Memory.wf s.memory ∧ Canonical DirEntry.blank s.store.directory

/-- No queue holds more than the manual gives it: as-run records (R169), reply packets (R184),
complete commands (R181), bytes of the pass-through FIFO (R15), frames in transit (R7), armed
entries (R24), records of each break queue (R104). -/
abbrev State.withinCapacity (s : State) : Prop :=
  s.asrun.records.length ≤ Config.asrunRecords ∧ s.cmd.replies.length ≤ Config.replyQueue
    ∧ s.cmd.queue.length ≤ Config.commandQueue ∧ fifoDepth s.tx.fifo ≤ Config.fifoBytes
    ∧ s.tx.transit.length ≤ 3 ∧ s.store.armList.length ≤ Config.armEntries
    ∧ ∀ c : Fin 4, (s.ch c).queue.length ≤ Config.queueRecords

/-- What every step keeps: the canonical forms and the capacities. -/
abbrev State.safe (s : State) : Prop := s.formed ∧ s.withinCapacity

end Sys2Proof.Machine
end

