-- ==== Sys2Proof/Certificates/Slice0/Obligations.lean ====
section
/-! DEFINITION. The statements for the provers, and the words they are stated in. -/

namespace Sys2Proof.Machine.Claim

/-! ### Words for the command rows -/

/-- The oldest command of the queue is this one, the reply build area is empty, and nothing the last
frame made due is still to be done. -/
abbrev ready (s : State) (src : Byte) (h : CmdHeader) (body : List Byte) (rest : List Command) : Prop :=
  s.settled = true ∧ s.cmd.build = [] ∧ s.cmd.queue = ⟨src, h, body⟩ :: rest

/-- The command taken off the queue. -/
def taken (s : State) (rest : List Command) : State := s.setCmd { s.cmd with queue := rest }

/-- A reply placed in the build area: its packets to the command's source, from the unit address,
with the command's code and tag, the data cut at the data limit; a success without data only with
ACK. -/
def replied (src : Byte) (h : CmdHeader) (r : Reply) (s : State) : State :=
  let r := limitReply (dataLimit h) r
  if r.made h.ack then
    s.setCmd { s.cmd with build := replyPackets src s.lane.unitAddr h.code h.tag r }
  else s

/-- The row runs the oldest command with this reply from this state. -/
def answers (i : Instr) (s : State) (src : Byte) (h : CmdHeader) (r : Reply) (t : State) : Prop :=
  exec i s = .next (replied src h r t)

/-! ### Words for the frames -/

/-- Nothing sounds, waits or is under way that a frame could move, but for the contact lines, the
silence counts and the ducks: no voice, event, break, cart, packet or command is in the part, no
step is due, and every channel is HALTED or in NETWORK at unity gain. -/
abbrev atRest (s : State) : Prop :=
  s.settled = true ∧ s.forming = .start ∧ s.events = []
    ∧ (∀ v : Fin 16, (s.voice v).state = .free)
    ∧ (∀ c : Fin 4, (s.ch c).queue = [] ∧ ((s.ch c).state = .halted ∨ (s.ch c).state = .network)
        ∧ (s.ch c).gain = 3840 ∧ (s.ch c).gainTarget = 3840)
    ∧ s.cmd.inbox = [] ∧ s.cmd.build = [] ∧ s.cmd.replies = [] ∧ s.cmd.assembly = none
    ∧ s.alert.ready = none ∧ s.tx.fifo = [] ∧ s.tx.merger = .between

/-- Sixteen slot words and no aux byte. -/
def quietFrame (slots : Vector Sample 16) : TrunkFrame := makeFrame slots (Vector.replicate 4 0)

/-- A channel between two frames of a next frame already opened (Conventions, Time: the steps of one
frame in their order). -/
abbrev midFrame (s : State) : Prop := s.forming.opened = true

end Sys2Proof.Machine.Claim

open Sys2Proof Sys2Proof.Machine Sys2Proof.Machine.Claim

/-! ### The whole machine -/

/-- A step runs the waiting command at the front with the queue's rest, and idles on an empty queue.
The idling is the model's choice (log entry 1). -/
def Obligations.StepRunsTheFrontCommand : Prop :=
  (∀ (s : State) (c : Instr) (rest : List Instr),
      step (s.setPending (c :: rest)) = exec c (s.setPending rest))
    ∧ ∀ s : State, s.pending = [] → step s = .next s

/-- A command completes exactly when it names a unit the part has, in every state; any other stops
with the fault of its operand.  The four faults are the model's choice (log entry 30), and so is that
a row completes, with the state unchanged, where it is not due (log entry 3). -/
def Obligations.CompletesExactlyWhenWellFormed : Prop :=
  (∀ (i : Instr) (s : State), (∃ t, exec i s = .next t) ↔ i.wellFormed = true)
    ∧ (∀ (c : Nat) (s : State), 4 ≤ c →
        exec (.silenceLimitReached c) s = .fault .noSuchChannel
          ∧ exec (.recoveryLimitReached c) s = .fault .noSuchChannel
          ∧ exec (.breakOpen c) s = .fault .noSuchChannel ∧ exec (.join c) s = .fault .noSuchChannel
          ∧ (∀ n, exec (.breakExpiry c n) s = .fault .noSuchChannel)
          ∧ exec (.timeTrigger c) s = .fault .noSuchChannel)
    ∧ (∀ (v : Nat) (s : State), 16 ≤ v →
        exec (.voiceStart v) s = .fault .noSuchVoice ∧ exec (.voiceEnd v) s = .fault .noSuchVoice
          ∧ exec (.voiceFaded v) s = .fault .noSuchVoice)
    ∧ (∀ (c n : Nat) (s : State), c < 4 → n = 0 ∨ 65535 < n →
        exec (.breakExpiry c n) s = .fault .noSuchBreak)
    ∧ ∀ (f : TrunkFrame) (n : Nat) (s : State), 2 < n →
        exec (.ingressFrame f n) s = .fault .noSuchLag

/-- Clip memory and the directory keep their canonical form over every step. -/
def Obligations.FormsKeptByEveryStep : Prop :=
  ∀ s t : State, s.formed → step s = .next t → t.formed

/-- None of seven queues grows past its capacity over any step: the as-run records (256), the reply
packets (16), the commands (8), the bytes of the pass-through FIFO (512), the frames in transit (3),
the arm list (8) and each channel's break records (8).  The voice event queue and the item pool are
left out. -/
def Obligations.CapacitiesKeptByEveryStep : Prop :=
  ∀ s t : State, s.withinCapacity → step s = .next t → t.withinCapacity

/-- The state after reset has the canonical forms and the capacities, and nothing is due in it. -/
def Obligations.ResetStateIsSafe : Prop := State.reset.safe ∧ State.reset.settled = true

/-- Clip memory changes only in an ingress frame that is taken in LOCKED, and at power-on.  That a
frame is taken only with fewer than three in transit is the model's choice (log entry 6), and so is
that a word reads as 0 after power-on (log entry 10). -/
def Obligations.OnlyIngressFramesWriteClips : Prop :=
  ∀ (i : Instr) (s t : State), exec i s = .next t → t.memory ≠ s.memory →
    (∃ f n, i = .ingressFrame f n ∧ s.locked = true ∧ s.tx.transit.length < 3)
      ∨ ∃ straps gpi, i = .powerOnReset straps gpi

/-- The air clock: an egress frame row that is due advances the AC by one, to 0 for the first frame
after power-on; POWER_ON_RESET forms the frame with AC 0; CLOCK_SET may move it; every other step,
and an egress row that is not due, leaves the AC as it is.  That a row which is not due changes nothing
at all is the model's choice (log entry 3). -/
def Obligations.AirClockCountsEgressFrames : Prop :=
  ∀ (i : Instr) (s t : State), exec i s = .next t →
    match i with
    | .egressFrameFollow _ =>
      if s.tx.transit = [] then t = s else t.clock.ac = s.nextAC ∧ t.clock.noneFormed = false
    | .holdoverPeriodExpiry _ =>
      if s.tx.mode = .holdover ∧ s.tx.awaitFirst = false then
        t.clock.ac = s.nextAC ∧ t.clock.noneFormed = false
      else t = s
    | .firstHoldoverFrame _ =>
      if s.tx.awaitFirst = true then t.clock.ac = s.nextAC ∧ t.clock.noneFormed = false else t = s
    | .powerOnReset _ _ => t.clock.ac = 0 ∧ t.clock.noneFormed = false
    | .clockSet => t.clock.noneFormed = s.clock.noneFormed
    | _ => t.clock.ac = s.clock.ac ∧ t.clock.noneFormed = s.clock.noneFormed

/-! ### The aux lane (sections 1.4 and 1.5) -/

/-- The receiver is LOCKED and idle behind it but for the lane parser: the transit has room, no routed
packet waits, and no ingest runs. -/
abbrev Sys2Proof.Machine.Claim.lockedLane (s : State) : Prop :=
  s.rx.lock = .locked ∧ s.tx.transit.length < 3 ∧ s.settled = true ∧ s.cmd.inbox = []
    ∧ s.store.engine = none

/-- A whole COMMAND, COMMAND-MORE or CUE packet for the unit address, arriving byte by byte at an idle lane
parser, each byte with the reference frame of the frame that brings it, is routed with its destination,
source and payload and the reference frame of its last byte, whatever the others are; nothing else
changes: the encoding of packets and the parser agree for every payload of up to 200 bytes.  (Packets for
the group address and for all units are left out.) -/
def Sys2Proof.Machine.Claim.packetForTheUnitIsRouted : Prop :=
  ∀ (s : State) (refs : List AC) (last : AC) (p : Packet) (r : Route),
    s.lane.assembly = .idle → p.dest = s.lane.unitAddr →
    1 ≤ s.lane.unitAddr.toNat → s.lane.unitAddr.toNat ≤ 239 → p.payload.length ≤ 200 →
    (p.kind = 0x10 ∧ r = .cue ∨ p.kind = 0x20 ∧ r = .command ∨ p.kind = 0x21 ∧ r = .commandMore) →
    refs.length = (packetBytes p).length → refs.getLast? = some last →
    ((packetBytes p).zip refs).foldl (fun t q => laneByte q.2 t q.1) s =
      s.setCmd { s.cmd with inbox := s.cmd.inbox ++ [⟨r, p.dest, p.src, p.payload, last⟩] }

/-- INGRESS_FRAME brings a good frame's four aux bytes to the lane parser in lane order, all with the AC
that carries the frame as their reference frame (that AC: log entries 11 and 5; stated for an idle
ingest and no routed packet waiting). -/
def Sys2Proof.Machine.Claim.goodFrameBringsItsBytes : Prop :=
  ∀ (f : TrunkFrame) (n : Nat) (s : State), lockedLane s → n ≤ 2 →
    f.sync0 = 0x9C → f.sync1 = 0x63 → checkHolds f = true →
    let ac := s.clock.ac - BitVec.ofNat 32 n + 3
    exec (.ingressFrame f n) s = .next (f.aux.toList.foldl (laneByte ac)
      ((s.setRx { s.rx with missRun := 0, held := f.slots }).setTx { s.tx with
        transit := s.tx.transit ++ [⟨ac, f.slots, true⟩], lastCarrying := some ac }))

/-- A whole packet that is for no unit here enters the pass-through FIFO byte for byte, when it has
room, and nothing else changes.  (A packet that is taken and passed on is left out.) -/
def Sys2Proof.Machine.Claim.passedPacketEntersTheFifoWhole : Prop :=
  ∀ (s : State) (ref : AC) (p : Packet),
    s.lane.assembly = .idle → addressDecision s.lane.unitAddr s.lane.groupAddr p.dest = .pass →
    p.payload.length ≤ 200 →
    fifoDepth s.tx.fifo + p.payload.length + 7 ≤ 512 →
    (packetBytes p).foldl (laneByte ref) s =
      s.setTx { s.tx with fifo := s.tx.fifo ++ (packetBytes p).map FifoItem.byte }

/-- The aux bytes the merger sends in a number of positions, and the state after. -/
def Sys2Proof.Machine.Claim.sendBytes : Nat → State → List Byte × State
  | 0, s => ([], s)
  | n + 1, s =>
    let a := mergerByte s
    let b := Sys2Proof.Machine.Claim.sendBytes n a.2
    (a.1 :: b.1, b.2)

/-- Between packets, with no local packet waiting, the merger sends the packet at the front of the
pass-through FIFO unchanged and stands between packets again.  (The FIFO above 300 bytes with local
packets waiting is left out.) -/
def Sys2Proof.Machine.Claim.mergerSendsAPassedPacketWhole : Prop :=
  ∀ (s : State) (p : Packet) (rest : List FifoItem),
    s.tx.merger = .between → s.alert.ready = none → s.cmd.replies = [] → p.payload.length ≤ 200 →
    s.tx.fifo = (packetBytes p).map FifoItem.byte ++ rest →
    sendBytes (p.payload.length + 7) s = (packetBytes p, s.setTx { s.tx with fifo := rest })

/-- A queued reply packet is sent whole from between packets while the FIFO holds at most 300 bytes
and no ALERT is ready, whatever the FIFO holds. -/
def Sys2Proof.Machine.Claim.mergerSendsAReplyWhole : Prop :=
  ∀ (s : State) (p : Packet) (rest : List Packet),
    s.tx.merger = .between → s.alert.ready = none → s.cmd.replies = p :: rest →
    p.payload.length ≤ 200 → fifoDepth s.tx.fifo ≤ 300 →
    sendBytes (p.payload.length + 7) s
      = (packetBytes p, s.setCmd { s.cmd with replies := rest })

/-! ### The receiver (sections 1.2 and 1.3) -/

/-- SYNC_FOUND: in SEARCH a byte pair 0x9C 0x63 moves the receiver to VERIFY with a run of 1; any
other byte is only remembered.  No counter changes. -/
def Sys2Proof.Machine.Claim.syncFoundEntersVerify : Prop :=
  ∀ (b : Byte) (s : State), s.rx.lock = .search →
    exec (.syncFound b) s =
      .next (s.setRx (if s.rx.prevByte = some 0x9C ∧ b = 0x63 then
          { s.rx with lock := .verify, verifyRun := 1, prevByte := none }
        else { s.rx with prevByte := some b }))

/-- VERIFY_FRAME: a sync at the expected position counts, the fourth enters LOCKED and reports LOCK; a
missing one returns to SEARCH, where the second byte of the position is the byte before the next. -/
def Sys2Proof.Machine.Claim.verifyFrameCountsSyncs : Prop :=
  ∀ (b0 b1 : Byte) (s : State), s.rx.lock = .verify → s.settled = true →
    exec (.verifyFrame b0 b1) s = .next (
      if b0 = 0x9C ∧ b1 = 0x63 then
        if s.rx.verifyRun < 3 then s.setRx { s.rx with verifyRun := s.rx.verifyRun + 1 }
        else raiseAlert .lock (s.setRx { s.rx with lock := .locked, verifyRun := 0, missRun := 0 })
      else s.setRx { s.rx with lock := .search, verifyRun := 0, prevByte := some b1 })

/-- The receiver is LOCKED and idle behind it: the transit has room, no routed packet waits, the lane
parser is IDLE and no ingest runs. -/
abbrev Sys2Proof.Machine.Claim.quietLock (s : State) : Prop :=
  s.rx.lock = .locked ∧ s.tx.transit.length < 3 ∧ s.settled = true ∧ s.cmd.inbox = []
    ∧ s.lane.assembly = .idle ∧ s.store.engine = none

/-- INGRESS_FRAME: a good frame in LOCKED is delivered with its own slot words, which become the
held values, and the AC of the egress frame sent when it began to arrive plus 3.  (That AC is the last
frame formed less the operand, plus 3: log entries 11 and 5.  Stated for an idle lane with no aux byte
and an idle ingest.) -/
def Obligations.GoodFrameIsDelivered : Prop :=
  ∀ (f : TrunkFrame) (n : Nat) (s : State), quietLock s → n ≤ 2 →
    f.sync0 = 0x9C → f.sync1 = 0x63 → checkHolds f = true → f.aux = Vector.replicate 4 0 →
    exec (.ingressFrame f n) s = .next
      ((s.setRx { s.rx with missRun := 0, held := f.slots }).setTx { s.tx with
        transit := s.tx.transit ++ [⟨s.clock.ac - BitVec.ofNat 32 n + 3, f.slots, true⟩]
        lastCarrying := some (s.clock.ac - BitVec.ofNat 32 n + 3) })

/-- A frame whose check fails, and a frame with a first missed sync, are delivered with the held
values, which stay; the check failure or the sync miss is counted, and a miss sets the SYNC_SLIP
latch and reports it.  The aux bytes are not read.  (The carrying AC is that of log entries 11 and
5.) -/
def Sys2Proof.Machine.Claim.failedFrameCarriesHeldValues : Prop :=
  ∀ (f : TrunkFrame) (n : Nat) (s : State), quietLock s → n ≤ 2 →
    let ac := s.clock.ac - BitVec.ofNat 32 n + 3
    let tx := { s.tx with
      transit := s.tx.transit ++ [⟨ac, s.rx.held, false⟩], lastCarrying := some ac }
    (f.sync0 = 0x9C → f.sync1 = 0x63 → checkHolds f = false →
      exec (.ingressFrame f n) s = .next ((s.setRx { s.rx with
        missRun := 0, checkFail := min (s.rx.checkFail + 1) 65535 }).setTx tx))
    ∧ (¬(f.sync0 = 0x9C ∧ f.sync1 = 0x63) → s.rx.missRun = 0 →
      exec (.ingressFrame f n) s = .next (raiseAlert .syncSlip ((s.setRx { s.rx with
        missRun := 1, syncMiss := min (s.rx.syncMiss + 1) 65535, syncSlip := true }).setTx tx)))

/-- A second consecutive missed sync ends the lock: SEARCH, held values 0, the two counts, LOCK
reported, and HOLDOVER with an empty transit whose first frame is awaited.  (The AC of the last frame
delivered is kept by log entries 11 and 27.  Stated for an idle ingest: a busy one is left out.) -/
def Obligations.SecondMissEndsTheLock : Prop :=
  ∀ (f : TrunkFrame) (n : Nat) (s : State), quietLock s → n ≤ 2 →
    ¬(f.sync0 = 0x9C ∧ f.sync1 = 0x63) → s.rx.missRun ≠ 0 →
    exec (.ingressFrame f n) s = .next
      ((raiseAlert .lock (s.setRx { s.rx with
        lock := .search, missRun := 0, prevByte := some f.sync1
        syncMiss := min (s.rx.syncMiss + 1) 65535, lockLoss := min (s.rx.lockLoss + 1) 65535
        held := Vector.replicate 16 0 })).setTx { s.tx with
          mode := .holdover, transit := []
          awaitFirst := s.tx.awaitFirst || s.tx.mode == .follow
          lastCarrying := some (s.clock.ac - BitVec.ofNat 32 n + 3) })

/-- The lane parser after a failed frame (R14): IDLE, a packet in HEADER or BODY counted as broken, and a
packet being cut through marked in the FIFO with the number of its bytes that are missing. -/
def Sys2Proof.Machine.Claim.packetBroken (a : LaneState) (t : State) : State :=
  let u := t.setLane { t.lane with assembly := .idle, broken := min (t.lane.broken + 1) 65535 }
  match a with
  | .idle => t
  | .header _ => u
  | .body b =>
    if b.pushing then u.setTx { u.tx with fifo := u.tx.fifo ++
      [.mark (7 + b.len - (5 + b.payload.length + if b.checkA.isSome then 1 else 0))] }
    else u

/-- INGRESS_FRAME of a failed frame breaks the packet in assembly, in HEADER and in BODY alike, whether its
check fails, its sync is missing for the first time, or the lock ends with it: the parser is IDLE, the
broken count rises, and a packet being cut through leaves a mark of its missing bytes in the FIFO.  (The
AC of the frame delivered is that of log entries 11, 5 and 27.  Stated for an idle ingest.) -/
def Sys2Proof.Machine.Claim.failedFrameBreaksThePacket : Prop :=
  ∀ (f : TrunkFrame) (n : Nat) (s : State), lockedLane s → n ≤ 2 →
    let ac := s.clock.ac - BitVec.ofNat 32 n + 3
    let tx := { s.tx with
      transit := s.tx.transit ++ [⟨ac, s.rx.held, false⟩], lastCarrying := some ac }
    let broken (rx : Receiver) : State := packetBroken s.lane.assembly ((s.setRx rx).setTx tx)
    (f.sync0 = 0x9C → f.sync1 = 0x63 → checkHolds f = false →
      exec (.ingressFrame f n) s = .next (broken { s.rx with
        missRun := 0, checkFail := min (s.rx.checkFail + 1) 65535 }))
    ∧ (¬(f.sync0 = 0x9C ∧ f.sync1 = 0x63) → s.rx.missRun = 0 →
      exec (.ingressFrame f n) s = .next (raiseAlert .syncSlip (broken { s.rx with
        missRun := 1, syncMiss := min (s.rx.syncMiss + 1) 65535, syncSlip := true })))
    ∧ (¬(f.sync0 = 0x9C ∧ f.sync1 = 0x63) → s.rx.missRun ≠ 0 →
      let u := broken { s.rx with
        lock := .search, missRun := 0, prevByte := some f.sync1
        syncMiss := min (s.rx.syncMiss + 1) 65535, lockLoss := min (s.rx.lockLoss + 1) 65535
        held := Vector.replicate 16 0 }
      exec (.ingressFrame f n) s = .next ((raiseAlert .lock u).setTx { u.tx with
        mode := .holdover, transit := []
        awaitFirst := s.tx.awaitFirst || s.tx.mode == .follow }))

/-! ### The ingest engine (section 2.5) -/

/-- A frame at a busy engine: words are written only at the addresses of the next words of the clip,
as many as the width; every other word of clip memory reads as before. -/
def Sys2Proof.Machine.Claim.captureWritesOnlyTheNextWords : Prop :=
  ∀ (f : TrunkFrame) (n : Nat) (s t : State) (g : Ingest),
    s.store.engine = some g → s.settled = true → s.cmd.inbox = [] →
    exec (.ingressFrame f n) s = .next t →
    ∀ a : BitVec 28,
      (∀ k, k < g.arm.width → a ≠ s.wordAddress (s.entry g.arm.clip) (g.words + k)) →
      t.readWord a = s.readWord a

/-- A good frame at a busy engine with width 1, no limit, no stop moment and room in the page: the
word of the source slot is written at the address of the clip's next word, and the word count rises
by one.  (The captured carrying AC is that of log entry 11.  Failed frames, starts on a cue and page
edges are left out of this part.) -/
def Sys2Proof.Machine.Claim.goodFrameIsCaptured : Prop :=
  ∀ (f : TrunkFrame) (n : Nat) (s : State) (g : Ingest), s.formed →
    s.rx.lock = .locked → s.tx.transit.length < 3 → s.settled = true → s.cmd.inbox = [] →
    s.lane.assembly = .idle → n ≤ 2 →
    f.sync0 = 0x9C → f.sync1 = 0x63 → checkHolds f = true → f.aux = Vector.replicate 4 0 →
    s.store.engine = some g → g.start = none → g.stop = none → g.arm.limit = 0 →
    g.arm.width = 1 → g.arm.firstSlot < 16 → g.words % 65536 ≠ 0 →
    ∃ t, exec (.ingressFrame f n) s = .next t
      ∧ t.readWord (s.wordAddress (s.entry g.arm.clip) g.words) = slotAt f.slots g.arm.firstSlot
      ∧ t.store = { s.store with engine := some { g with
          words := g.words + 1
          captured := ⟨s.clock.ac - BitVec.ofNat 32 n + 3, false⟩ :: g.captured } }

/-- INGEST_LIMIT, INGEST_REGION_END and INGEST_CUE_STOP: an ingest of a mono library clip that has
reached the row's end and kept a frame becomes READY with its length and damage, the engine is idle,
the report is recorded and INGEST is raised. -/
def Obligations.IngestEndsWithItsReport : Prop :=
  ∀ (s : State) (g : Ingest) (i : Instr) (o : IngestOutcome),
    (i = .ingestLimit ∧ o = .limit ∨ i = .ingestRegionEnd ∧ o = .regionEnd
      ∨ i = .ingestCueStop ∧ o = .cueStop) →
    s.store.engine = some g → g.ending = some o → 0 < g.words →
    (s.entry g.arm.clip).region = .library → (s.entry g.arm.clip).layout = .mono →
    exec i s = .next (raiseAlert .ingest
      (let t := s.setEntry g.arm.clip { s.entry g.arm.clip with
        state := .ready, length := g.words, damage := min g.failed 65535 }
      t.setStore { t.store with engine := none, lastReport := ⟨g.arm.clip, o, g.words⟩ }))

/-! ### Egress frames (section 1.3, chapter 4) -/

/-- EGRESS_FRAME_FOLLOW in a part at rest: the oldest frame in transit leaves with its slot words
unchanged, the enabled channels in NETWORK among them, the transmitter is in FOLLOW, a return from
HOLDOVER counts a timing slip, and the AC advances. -/
def Obligations.FollowFrameCarriesTheSlots : Prop :=
  ∀ (gpi : Byte) (s : State) (f : TransitFrame) (rest : List TransitFrame),
    atRest s → s.tx.transit = f :: rest →
    ∃ t, exec (.egressFrameFollow gpi) s = .next t
      ∧ t.tx = { s.tx with
          mode := .follow, awaitFirst := false, transit := rest
          timingSlip := if s.tx.mode = .holdover then min (s.tx.timingSlip + 1) 65535
            else s.tx.timingSlip
          sent := some (quietFrame f.slots) }
      ∧ t.clock = { s.clock with ac := s.nextAC, noneFormed := false }
      ∧ t.rx = s.rx ∧ t.lane = s.lane ∧ t.cues = s.cues ∧ t.memory = s.memory
      ∧ t.pending = s.pending

/-- HOLDOVER_PERIOD_EXPIRY and FIRST_HOLDOVER_FRAME in a part at rest: a frame of zero slots leaves,
the period counter is loaded with the setting, the transit stays and the AC advances. -/
def Obligations.HoldoverFrameCarriesZeros : Prop :=
  ∀ (gpi : Byte) (s : State) (i : Instr), atRest s →
    (i = .holdoverPeriodExpiry gpi ∧ s.tx.mode = .holdover ∧ s.tx.awaitFirst = false
      ∨ i = .firstHoldoverFrame gpi ∧ s.tx.awaitFirst = true) →
    ∃ t, exec i s = .next t
      ∧ t.tx = { s.tx with
          awaitFirst := false, periodCounter := s.tx.holdover
          sent := some (quietFrame (Vector.replicate 16 0)) }
      ∧ t.clock = { s.clock with ac := s.nextAC, noneFormed := false }
      ∧ t.rx = s.rx ∧ t.lane = s.lane ∧ t.cues = s.cues ∧ t.memory = s.memory
      ∧ t.pending = s.pending

/-- Every egress frame the part can form passes the ingress check of the next unit. -/
def Sys2Proof.Machine.Claim.framesPassTheFrameCheck : Prop :=
  ∀ (slots : Vector Sample 16) (aux : Vector Byte 4) (rx : Receiver),
    judgeFrame rx (makeFrame slots aux) = .good

/-- The mix of a channel that is not HALTED (R76 to R79): on each of its two slots the sum of its voices'
outputs, each by the multiplier of its code less the duck, and of the network by the multiplier of the
network path gain, divided by 2^23, rounded to the nearest with halves upward, and put into the sample
range; each side put there is counted.  Every other slot and channel stays; a HALTED channel changes
nothing. -/
def Sys2Proof.Machine.Claim.mixAddsVoicesAndNetwork : Prop :=
  ∀ (c : Fin 4) (carried : Option (Vector Sample 16)) (slots : Vector Sample 16) (s : State),
    let x := s.ch c
    let t := mixChannel c carried slots s
    let scale (g : Nat) : Int := if g = 0 then 0 else ((256 + g % 256) * 2 ^ (g / 256) : Nat)
    let network (i : Nat) : Int := carried.elim 0 fun v => (slotAt v i).toInt
    let outs := s.forming.outputs.filter fun o => o.channel == c
    let side (sample : VoiceOut → Int) (n : Int) : Int :=
      ((outs.map fun o => sample o * scale (o.code - x.duck)).sum + n * scale x.gain + 4194304) / 8388608
    let l := side (fun o => o.left) (network x.config.slotL)
    let r := side (fun o => o.right) (network x.config.slotR)
    let inRange (a : Int) : Int := max (-8388608) (min 8388607 a)
    (x.state = .halted → t = (slots, s))
      ∧ (x.state ≠ .halted → x.config.slotL < 16 → x.config.slotR < 16 →
          x.config.slotL ≠ x.config.slotR → x.saturation ≤ 65535 →
        (slotAt t.1 x.config.slotL).toInt = inRange l
          ∧ (slotAt t.1 x.config.slotR).toInt = inRange r
          ∧ (∀ i, i ≠ x.config.slotL → i ≠ x.config.slotR → slotAt t.1 i = slotAt slots i)
          ∧ (t.2.ch c).saturation = min (x.saturation + (if inRange l = l then 0 else 1)
              + if inRange r = r then 0 else 1) 65535
          ∧ (t.2.ch c).gain = x.gain ∧ (t.2.ch c).duck = x.duck
          ∧ (∀ d, d ≠ c → t.2.ch d = s.ch d)
          ∧ t.2.voices = s.voices ∧ t.2.events = s.events ∧ t.2.forming = s.forming
          ∧ t.2.tx = s.tx ∧ t.2.clock = s.clock ∧ t.2.memory = s.memory)

/-- The moves before the mix (R74, R75): in a boundary frame the network path gain of each enabled
channel moves by its rate toward its target without passing it, and the duck by its rate toward the
duck depth while a MIC_LIVE line of the channel is high, toward 0 otherwise; in any other frame nothing
moves.  (Stated with no channel in JOINING or EMERGENCY, where a move may also complete a join or a
return.) -/
def Sys2Proof.Machine.Claim.gainAndDuckMoveAtBoundaries : Prop :=
  ∀ s : State,
    let toward (now target rate : Nat) : Nat :=
      if now < target then min (now + rate) target else max (now - rate) target
    (s.nextAC.toNat % 32 ≠ 0 → boundaryMoves s = s)
      ∧ (s.nextAC.toNat % 32 = 0 →
          (∀ c : Fin 4, (s.ch c).state ≠ .joining ∧ (s.ch c).state ≠ .emergency) →
        boundaryMoves s = s.setChans (Vector.ofFn fun c : Fin 4 => { s.ch c with
          gain := if (s.ch c).config.enable then
              toward (s.ch c).gain (s.ch c).gainTarget (s.ch c).gainRate
            else (s.ch c).gain
          duck := toward (s.ch c).duck
            (if ∃ g : Fin 8, (s.gpiLine g).fn = .micLive c ∧ (s.gpiLine g).stable = true then
              (s.ch c).config.duckDepth
            else 0) (s.ch c).config.duckRate }))

/-- The trigger is a TIME target. -/
def Sys2Proof.Machine.Claim.waitsForTime : Trigger → Bool
  | .time _ => true
  | .cue _ | .manual => false

/-- Nothing but the voices, the gains and the ducks moves in the next frame: it is not begun, nothing is
due before it, no record opens, expires, triggers or joins in it, no channel is in JOINING or EMERGENCY
at a boundary, and a contact line has no function but MIC_LIVE. -/
abbrev Sys2Proof.Machine.Claim.playingOn (s : State) : Prop :=
  s.settled = true ∧ s.forming = .start ∧ s.events = [] ∧ s.cmd.inbox = [] ∧ s.cmd.build = []
    ∧ (∀ a ∈ s.cmd.assembly, a.deadline ≠ s.nextAC)
    ∧ (∀ c : Fin 4, ∀ r ∈ (s.ch c).queue,
        (r.state = .preroll → r.start ≠ some s.nextAC)
        ∧ (r.state = .pending → r.expiry = none ∧ waitsForTime r.trigger = false)
        ∧ (r.state = .onAir → ∀ p ∈ r.plan, p.ret ≠ s.clock.ac))
    ∧ (s.nextAC.toNat % 32 = 0 → ∀ c : Fin 4, (s.ch c).state ≠ .joining ∧ (s.ch c).state ≠ .emergency)
    ∧ ∀ g : Fin 8, (s.gpiLine g).fn = .none ∨ ∃ c, (s.gpiLine g).fn = .micLive c

/-- Voice v starts, ends and changes its code in no way in the next frame: a PRIMED one waits, a PLAYING
one is within its clip or looped, with a code that stands at its ramp's target where the frame is a
boundary. -/
abbrev Sys2Proof.Machine.Claim.voiceSteady (s : State) (v : Fin 16) : Prop :=
  let x := s.voice v
  (x.state = .primed → (x.startFrame.any fun a => acAtOrBefore a s.nextAC) = false)
    ∧ (x.state = .playing →
      (x.loop = none → x.index < (s.entry (x.clip.getD 0)).length)
        ∧ (s.nextAC.toNat % 32 = 0 → x.staged = none
          ∧ ∀ r ∈ x.ramp, x.code = r.target ∧ r.stop = false))

/-- The three egress frame rows in a part whose channels mix and whose voices play (R50, R74 to R78): in
the frame sent, each of the two slots of a channel that is not HALTED carries the sum of its PLAYING
voices' outputs and of the carried network word, each by the multiplier of its code, after the gain and
the duck have moved in a boundary frame, rounded and put into the sample range; every slot of no such
channel carries the network word; each PLAYING voice moves on by its step.  (The ramps and ends of
voices, and what a frame opens, expires, triggers or joins, are left out.) -/
def Sys2Proof.Machine.Claim.egressFrameCarriesTheMix : Prop :=
  ∀ (i : Instr) (gpi : Byte) (s : State) (carried : Option (Vector Sample 16)),
    playingOn s → (∀ v : Fin 16, voiceSteady s v) →
    (∀ c : Fin 4, (s.ch c).state ≠ .halted →
      (s.ch c).config.slotL < 16 ∧ (s.ch c).config.slotR < 16
        ∧ (s.ch c).config.slotL ≠ (s.ch c).config.slotR
        ∧ ∀ d : Fin 4, d ≠ c → (s.ch d).state ≠ .halted → ∀ k, k = (s.ch c).config.slotL
          ∨ k = (s.ch c).config.slotR → k ≠ (s.ch d).config.slotL ∧ k ≠ (s.ch d).config.slotR) →
    (i = .egressFrameFollow gpi ∧ (∃ f rest, s.tx.transit = f :: rest ∧ carried = some f.slots)
      ∨ carried = none ∧ (i = .holdoverPeriodExpiry gpi ∧ s.tx.mode = .holdover
          ∧ s.tx.awaitFirst = false ∨ i = .firstHoldoverFrame gpi ∧ s.tx.awaitFirst = true)) →
    let a := s.nextAC
    let toward (now target rate : Nat) : Nat :=
      if now < target then min (now + rate) target else max (now - rate) target
    let gain (c : Fin 4) : Nat := if a.toNat % 32 = 0 ∧ (s.ch c).config.enable = true then
      toward (s.ch c).gain (s.ch c).gainTarget (s.ch c).gainRate else (s.ch c).gain
    let duck (c : Fin 4) : Nat := if a.toNat % 32 = 0 then
      toward (s.ch c).duck
        (if ∃ g : Fin 8, (s.gpiLine g).fn = .micLive c ∧ (s.gpiLine g).stable = true then
          (s.ch c).config.duckDepth else 0) (s.ch c).config.duckRate else (s.ch c).duck
    let scale (g : Nat) : Int := if g = 0 then 0 else ((256 + g % 256) * 2 ^ (g / 256) : Nat)
    let network (k : Nat) : Int := carried.elim 0 fun w => (slotAt w k).toInt
    let voices (c : Fin 4) : List (Fin 16) := allVoices.filter fun v =>
      (s.voice v).state == .playing && (s.voice v).owner.any fun o => o.channel == c
    let mixed (c : Fin 4) (side slot : Nat) : Int :=
      (((voices c).map fun v =>
          s.voiceOutput (s.voice v) (s.entry ((s.voice v).clip.getD 0)) side
            * scale ((s.voice v).code - duck c)).sum
        + network slot * scale (gain c) + 4194304) / 8388608
    let inRange (n : Int) : Int := max (-8388608) (min 8388607 n)
    (∀ v : Fin 16, (s.voice v).state = .playing → (s.voice v).owner.isSome = true) →
    ∃ t f, exec i s = .next t ∧ t.tx.sent = some f
      ∧ (∀ c : Fin 4, (s.ch c).state ≠ .halted →
          (slotAt f.slots (s.ch c).config.slotL).toInt = inRange (mixed c 0 (s.ch c).config.slotL)
            ∧ (slotAt f.slots (s.ch c).config.slotR).toInt
              = inRange (mixed c 1 (s.ch c).config.slotR))
      ∧ (∀ k, k < 16 → (∀ c : Fin 4, (s.ch c).state ≠ .halted →
          k ≠ (s.ch c).config.slotL ∧ k ≠ (s.ch c).config.slotR) →
          (slotAt f.slots k).toInt = network k)
      ∧ (∀ v : Fin 16, (s.voice v).state = .playing →
          t.voice v = (s.voice v).advance (s.entry ((s.voice v).clip.getD 0)).length)
      ∧ (a.toNat % 32 ≠ 31 → ∀ c : Fin 4, (t.ch c).gain = gain c ∧ (t.ch c).duck = duck c)
      ∧ t.clock = { s.clock with ac := a, noneFormed := false }

/-- POWER_ON_RESET: every block in its power-on state, the straps sampled, a first HOLDOVER frame of
zeros with AC 0 in which the contact lines were sampled.  The model's choices in it: the waiting
commands stay (log entry 2), the reset values of log entry 9, clip memory that reads as 0 (log
entry 10), and the model's own count of free values drawn (log entry 46). -/
def Obligations.PowerOnFormsTheFirstFrame : Prop :=
  ∀ (straps gpi : Byte) (s : State),
    exec (.powerOnReset straps gpi) s = .next { State.reset with
      lane := { State.reset.lane with
        straps := straps
        unitAddr := if 1 ≤ straps.toNat ∧ straps.toNat ≤ 239 then straps else 0 }
      tx := { State.reset.tx with
        awaitFirst := false, periodCounter := 512
        sent := some (quietFrame (Vector.replicate 16 0)) }
      clock := { State.reset.clock with ac := 0, noneFormed := false }
      gpi := Vector.ofFn fun g : Fin 8 => ⟨false, if gpi.getLsbD g.val then 1 else 0, .none⟩
      cmd := { State.reset.cmd with draws := s.cmd.draws }
      pending := s.pending }

/-! ### Silence monitors (chapter 9) -/

/-- SILENCE_LIMIT_REACHED: the level becomes active and is reported.  With auto-fill on in NETWORK, an
emergency clip that is READY and a FREE voice, the lowest FREE voice is primed with the clip, looped
from the next block boundary, and the channel fades into EMERGENCY. -/
def Sys2Proof.Machine.Claim.silenceLimitRaisesTheLevel : Prop :=
  (∀ (c : Fin 4) (s : State), s.silenceDue c = true → (s.ch c).config.autoFill = false →
    exec (.silenceLimitReached c.val) s = .next (raiseAlert (.silence c)
      (s.setCh c { s.ch c with
        monitor := { (s.ch c).monitor with silence := true, limitReached := false } })))
  ∧ ∀ (c : Fin 4) (s : State) (clip : Nat) (v : Fin 16) (free : List (Fin 16)),
    s.silenceDue c = true → (s.ch c).config.autoFill = true → (s.ch c).state = .network →
    (s.ch c).monitor.phase = .none → (s.ch c).config.emClip = some clip →
    (s.entry clip).state = .ready → s.freeVoices = v :: free → s.eventPending v = false →
    ∃ t, exec (.silenceLimitReached c.val) s = .next t
      ∧ (t.ch c).state = .emergency ∧ (t.ch c).gainTarget = 0
      ∧ (t.ch c).monitor.silence = true ∧ (t.ch c).monitor.phase = .covering
      ∧ (t.ch c).monitor.emRecord = some ⟨v, clip, (s.entry clip).spotKey, none⟩
      ∧ (t.ch c).monitor.recoveryCount = 0
      ∧ (t.voice v).state = .primed ∧ (t.voice v).owner = some ⟨c, .emergency⟩
      ∧ (t.voice v).clip = some clip ∧ (t.voice v).loop.isSome = true
      ∧ (t.voice v).startFrame = some (nextBoundary s.clock.ac)
      ∧ t.entry clip = { s.entry clip with hold := (s.entry clip).hold + 1 }
      ∧ t.memory = s.memory ∧ t.clock = s.clock ∧ t.tx = s.tx ∧ t.rx = s.rx ∧ t.lane = s.lane
      ∧ t.asrun = s.asrun ∧ t.cmd = s.cmd

/-- RECOVERY_LIMIT_REACHED: the emergency voice fades to zero over J_j, the phase is RECOVERING with a
count of 0, and the network path gain fades back to unity; nothing else changes. -/
def Sys2Proof.Machine.Claim.recoveryLimitBeginsTheReturn : Prop :=
  ∀ (c : Fin 4) (s : State) (r : EmRecord), s.recoveryDue c = true →
    (s.ch c).monitor.emRecord = some r → (s.voice r.voice).state = .playing →
    (s.ch c).config.joinFade ≠ 0 →
    exec (.recoveryLimitReached c.val) s = .next
      ((s.setVoice r.voice { s.voice r.voice with
          ramp := some ⟨0, fadeRate (s.voice r.voice).code (s.ch c).config.joinFade, 0, true⟩
          staged := none }).setCh c { s.ch c with
            returning := true, gainTarget := 3840
            gainRate := fadeRate (distance 3840 (s.ch c).gain) (s.ch c).config.joinFade
            monitor := { (s.ch c).monitor with phase := .recovering, recoveryCount := 0 } })

/-- The judgment of a block (R153, R154, R158): after the last frame of a block every channel is judged;
a channel that is HALTED or has no frame to judge stays.  A block whose egress peak is below the
threshold adds 1 to the silent count, any other sets it to 0; the recovery count is judged by the
ingress peak only while the fill covers in EMERGENCY without returning and the block began at or after
the fill's start; the peaks start anew.  At the limit an inactive level is due to become active, and
below it an active one becomes inactive and is reported. -/
def Sys2Proof.Machine.Claim.blockIsJudged : Prop :=
  (∀ (f : TrunkFrame) (gpi : Byte) (s : State), s.nextAC.toNat % 32 = 31 →
    afterFrame f gpi s = forChannels judgeBlock
      (((s.setTx { s.tx with sent := some f }).setClock { s.clock with
        ac := s.nextAC, noneFormed := false }).setForming .start))
  ∧ ∀ (c : Fin 4) (s : State),
    let x := s.ch c
    let m := x.monitor
    (x.state = .halted ∨ m.peaks = none → judgeBlock c s = s)
      ∧ ∀ (p : Peaks) (recovery : Nat), x.state ≠ .halted → m.peaks = some p →
        let covered := m.phase = .covering ∧ x.state = .emergency ∧ x.returning = false
          ∧ ∃ r a, m.emRecord = some r ∧ r.startAC = some a ∧ acAtOrAfter p.first a = true
        (covered → recovery =
          if x.config.silThreshold ≤ p.ingress then min (m.recoveryCount + 1) 65535 else 0) →
        (¬covered → recovery = m.recoveryCount) →
        let count := if p.egress < x.config.silThreshold then min (m.silentCount + 1) 65535 else 0
        let judged (silence limitReached : Bool) : State := s.setCh c { x with monitor := { m with
          silentCount := count, silence := silence, limitReached := limitReached
          recoveryCount := recovery, peaks := none } }
        (m.silence = false → judgeBlock c s = judged false (decide (x.config.silLimit ≤ count)))
          ∧ (m.silence = true → count < x.config.silLimit →
            judgeBlock c s = raiseAlert (.silence c) (judged false false))
          ∧ (m.silence = true → x.config.silLimit ≤ count → x.config.autoFill = false →
            judgeBlock c s = judged true false)

/-! ### Voices (chapter 3) -/

/-- The next frame is under way, voice v is the first not yet handled in it, and no break opens. -/
abbrev Sys2Proof.Machine.Claim.atVoice (s : State) (v : Fin 16) : Prop :=
  s.forming.opened = true ∧ s.forming.cursor = v.val ∧ ∀ c : Fin 4, s.openDue c = false

/-- VOICE_START: a PRIMED voice whose start frame is the next frame, or has passed, becomes PLAYING
with that frame's AC as its start AC, raises STARTED, gives the output at its position and moves on
by its step.  (Stated for a frame that is no boundary and a position before the last clip frame.) -/
def Sys2Proof.Machine.Claim.voiceStartsAndSounds : Prop :=
  ∀ (s : State) (v : Fin 16) (o : Owner) (n : Nat) (f : AC), atVoice s v →
    let x := s.voice v
    let e := s.entry n
    let a := s.nextAC
    x.state = .primed → x.owner = some o → x.clip = some n → x.loop = none →
    x.startFrame = some f → acAtOrBefore f a = true → a.toNat % 32 ≠ 0 →
    x.index + (x.fraction + x.step) / 65536 < e.length → x.index < e.length →
    exec (.voiceStart v.val) s = .next
      (((s.setVoice v { x with
          state := .playing, startAC := some a
          index := x.index + (x.fraction + x.step) / 65536
          fraction := (x.fraction + x.step) % 65536 }).setEvents
        (s.events ++ [⟨.started, v, a, 0⟩])).setForming { s.forming with
          cursor := v.val + 1
          outputs := s.forming.outputs ++
            [⟨v, o.channel, s.voiceOutput x e 0, s.voiceOutput x e 1, x.code⟩] })

/-- VOICE_END and VOICE_FADED: a PLAYING voice without a loop at its clip's end gives no output and
raises END; at a boundary where its ramp brings the code to 0 with target 0 and STOP it gives no
output and raises FADED.  In both it becomes RESERVED and keeps its owner and clip.  (That a code which
stands at 0 already stops it too, whatever the request, is log entry 58.) -/
def Sys2Proof.Machine.Claim.voiceEndsOrFades : Prop :=
  (∀ (s : State) (v : Fin 16), atVoice s v → (s.voice v).state = .playing →
    (s.voice v).loop = none → s.nextAC.toNat % 32 ≠ 0 →
    (s.entry ((s.voice v).clip.getD 0)).length ≤ (s.voice v).index →
    exec (.voiceEnd v.val) s = .next
      (((s.setVoice v { s.voice v with
          state := .reserved, startFrame := none, ramp := none, staged := none }).setEvents
        (s.events ++ [⟨.ended, v, s.nextAC, 0⟩])).setForming
          { s.forming with cursor := v.val + 1 }))
  ∧ ∀ (s : State) (v : Fin 16) (rate : Nat), atVoice s v → (s.voice v).state = .playing →
    (s.voice v).ramp = some ⟨0, rate, 0, true⟩ → (s.voice v).staged = none →
    s.nextAC.toNat % 32 = 0 → (s.voice v).code ≤ rate →
    exec (.voiceFaded v.val) s = .next
      (((s.setVoice v { s.voice v with
          code := 0, state := .reserved, startFrame := none, ramp := none, staged := none }).setEvents
        (s.events ++ [⟨.faded, v, s.nextAC, 0⟩])).setForming
          { s.forming with cursor := v.val + 1 })

/-- The output of a voice on one side: interpolation between the samples at i and i + 1, rounded
toward minus infinity, with the two exceptions for i + 1; it lies between them; a mono clip gives
both sides the same value; the samples are read at the clip's word addresses. -/
def Obligations.VoiceOutputInterpolates : Prop :=
  ∀ (s : State) (x : Voice) (e : DirEntry) (side : Nat), x.fraction < 65536 →
    let s0 := s.clipSample e x.index side
    let i1 := match x.loop with
      | some (first, stop) => if x.index + 1 = stop then first else x.index + 1
      | none => if x.index + 1 = e.length then x.index else x.index + 1
    let s1 := s.clipSample e i1 side
    s.voiceOutput x e side = s0 + (s1 - s0) * x.fraction / 65536
      ∧ min s0 s1 ≤ s.voiceOutput x e side ∧ s.voiceOutput x e side ≤ max s0 s1
      ∧ (e.layout = .mono → s.voiceOutput x e 0 = s.voiceOutput x e 1)
      ∧ (∀ i, s.clipSample e i side = (s.readWord (s.wordAddress e
          (if e.layout = .mono then i else 2 * i + side))).toInt)
      ∧ (∀ w, e.region = .library →
          s.wordAddress e w = BitVec.ofNat 28 (e.firstPage * 65536 + w))
      ∧ ∀ w, e.region = .ring →
          s.wordAddress e w = BitVec.ofNat 28 (s.store.lp * 65536
            + ((e.firstPage - s.store.lp) * 65536 + w) % ((4096 - s.store.lp) * 65536))

/-- The position after an output: the fraction takes the low 16 bits of φ + step and the integer part
the carry; past a loop end the loop's span is taken off as often as needed, and once is enough for a
span of 32 clip frames and a step under 2 clip frames; without a loop the position stops at the
length.  Step and loop stay, and the integer part lies in 0..length. -/
def Obligations.VoicePositionAdvances : Prop :=
  ∀ (x : Voice) (length : Nat),
    let i := x.index + (x.fraction + x.step) / 65536
    let y := x.advance length
    y = { x with index := y.index, fraction := y.fraction }
      ∧ (x.loop = none → i < length → y.index = i ∧ y.fraction = (x.fraction + x.step) % 65536)
      ∧ (x.loop = none → length ≤ i → y.index = length ∧ y.fraction = 0)
      ∧ (∀ first stop, x.loop = some (first, stop) → first < stop →
          y.fraction = (x.fraction + x.step) % 65536
            ∧ (i < stop → y.index = i)
            ∧ (stop ≤ i → (∃ k, 1 ≤ k ∧ i = y.index + k * (stop - first))
                ∧ first ≤ y.index ∧ y.index < stop)
            ∧ (x.index < stop → x.fraction < 65536 → x.step < 131072 → 32 ≤ stop - first →
                stop ≤ i → y.index = i - (stop - first))
            ∧ (stop ≤ length → y.index ≤ length))
      ∧ (x.loop = none → y.index ≤ length)

/-- A voice without a loop that starts at position 0 with step s on a clip of L clip frames gives its
outputs in exactly ceil(L × 65,536 / s) frames: it has run off the clip after k moves exactly when k
is at least that number. -/
def Sys2Proof.Machine.Claim.framesAiredAreExact : Prop :=
  ∀ (x : Voice) (length k : Nat), x.index = 0 → x.fraction = 0 → x.loop = none → 0 < x.step →
    (((fun y : Voice => y.advance length)^[k] x).ranOff length = true
      ↔ (length * 65536 + x.step - 1) / x.step ≤ k)

/-- A timed fade to zero over J blocks reaches 0 at or before the J-th boundary it meets, J taken as
17 to 1023, never rises, and a timed fade to a level reaches its level in the same number. -/
def Sys2Proof.Machine.Claim.timedFadesArriveInTime : Prop :=
  ∀ (code target j : Nat), code ≤ 4095 → target ≤ 4095 → 0 < j →
    let blocks := min (max j 17) 1023
    (fun c => moveToward c 0 (zeroRamp code j).rate)^[blocks] code = 0
      ∧ (∀ c, moveToward c 0 (zeroRamp code j).rate ≤ c)
      ∧ (fun c => moveToward c target (levelRamp code target j).rate)^[blocks] code = target
      ∧ (levelRamp code target j).rate ≤ 241

/-- VOICE_EVENT_DELIVERY of a finishing event to the cart logic: the event leaves the queue, a FULL
CART record with the start AC, end AC and frames aired is handed over, the voice becomes FREE and its
cart record is gone. -/
def Sys2Proof.Machine.Claim.cartEndWritesItsRecord : Prop :=
  ∀ (s : State) (e : VoiceEvent) (rest : List VoiceEvent) (c : Fin 4) (r : CartRecord) (a : AC),
    s.forming.opened = false → s.settled = true → s.events = e :: rest → e.kind ≠ .started →
    (s.voice e.voice).state ≠ .free → (s.voice e.voice).owner = some ⟨c, .cart⟩ →
    (s.ch c).carts.find? (fun q => q.voice == e.voice) = some r → r.startAC = some a →
    s.asrun.records.length < 256 →
    ∃ t, exec .voiceEventDelivery s = .next t
      ∧ t.events = rest.filter (fun q => q.voice != e.voice)
      ∧ t.voice e.voice = Voice.freed
      ∧ t.ch c = { s.ch c with carts := (s.ch c).carts.filter fun q => q.voice != e.voice }
      ∧ t.asrun.records = s.asrun.records ++ [{
          channel := c, kind := .cart, breakNo := none, itemNo := none, clip := r.clip
          spotKey := r.spotKey, outcome := .full, cause := .none, late := false, planned := none
          aired := some ⟨a, e.ac + e.shift, (e.ac + e.shift - a).toNat⟩, squeeze := none }]
      ∧ t.memory = s.memory ∧ t.clock = s.clock ∧ t.tx = s.tx ∧ t.rx = s.rx ∧ t.lane = s.lane
      ∧ t.cmd = s.cmd ∧ (∀ d, d ≠ c → t.ch d = s.ch d)
      ∧ (∀ v, v ≠ e.voice → t.voice v = s.voice v)

/-- VOICE_EVENT_DELIVERY to a silence monitor (R156, R159, R160, R161): STARTED keeps the fill's start AC;
a finishing event of a fill that recovers or yields hands over a FULL EMERGENCY record, frees the voice
and ends the phase.  A recovering channel whose gain stands at unity is back in NETWORK, and one whose
gain is still moving keeps the emergency clear mark. -/
def Sys2Proof.Machine.Claim.emergencyEventsAreTaken : Prop :=
  ∀ (s : State) (e : VoiceEvent) (rest : List VoiceEvent) (c : Fin 4) (r : EmRecord),
    s.forming.opened = false → s.settled = true → s.events = e :: rest →
    (s.voice e.voice).owner = some ⟨c, .emergency⟩ → (s.ch c).monitor.emRecord = some r →
    (e.kind = .started → exec .voiceEventDelivery s = .next ((s.setEvents rest).setCh c { s.ch c with
        monitor := { (s.ch c).monitor with
          emRecord := some { r with startAC := some (e.ac + e.shift) } } }))
      ∧ ∀ a, e.kind ≠ .started → r.voice = e.voice → r.startAC = some a →
        (s.voice e.voice).state ≠ .free → s.asrun.records.length < 256 →
        ((s.ch c).monitor.phase = .yielding
          ∨ (s.ch c).monitor.phase = .recovering ∧ (s.ch c).state = .emergency
            ∧ (s.ch c).returning = true) →
        let m := { (s.ch c).monitor with phase := .none, emRecord := none }
        ∃ t, exec .voiceEventDelivery s = .next t
          ∧ t.events = rest.filter (fun q => q.voice != e.voice)
          ∧ t.voice e.voice = Voice.freed ∧ (∀ v, v ≠ e.voice → t.voice v = s.voice v)
          ∧ t.asrun.records = s.asrun.records ++ [{
              channel := c, kind := .emergency, breakNo := none, itemNo := none, clip := r.clip
              spotKey := r.spotKey, outcome := .full, cause := .none, late := false, planned := none
              aired := some ⟨a, e.ac + e.shift, (e.ac + e.shift - a).toNat⟩, squeeze := none }]
          ∧ ((s.ch c).monitor.phase = .yielding → t.ch c = { s.ch c with monitor := m })
          ∧ ((s.ch c).monitor.phase = .recovering → (s.ch c).gain = 3840 → t.ch c = { s.ch c with
              monitor := m, state := .network, returning := false, emClear := false })
          ∧ ((s.ch c).monitor.phase = .recovering → (s.ch c).gain ≠ 3840 →
              t.ch c = { s.ch c with monitor := m, emClear := true })
          ∧ (∀ d, d ≠ c → t.ch d = s.ch d)
          ∧ t.memory = s.memory ∧ t.clock = s.clock ∧ t.tx = s.tx ∧ t.rx = s.rx ∧ t.cmd = s.cmd

/-- The parts of one kind in a record changed by f, in a list of records. -/
def Sys2Proof.Machine.Claim.withPart (n : Nat) (k : PartKind) (f : Part → Part)
    (l : List BreakRecord) : List BreakRecord :=
  l.map fun q => if q.number = n then { q with run := q.run.map fun w => { w with
    parts := w.parts.map fun x => if x.kind = k then f x else x } } else q

/-- VOICE_EVENT_DELIVERY to a break that is ON_AIR (R140, R141): STARTED makes the PRIMED part of the
voice SOUNDING with its start AC, and when placed item k + 1 starts, item k that is still SOUNDING takes
its own fade-out; a finishing event makes the part FINISHED with its end AC, and the voice is primed
with the next WAITING item of its own, or rests when it has none. -/
def Sys2Proof.Machine.Claim.breakEventsMoveTheParts : Prop :=
  ∀ (s : State) (e : VoiceEvent) (rest : List VoiceEvent) (c : Fin 4) (r : BreakRecord) (u : Run)
      (p : Part), s.forming.opened = false → s.settled = true → s.events = e :: rest →
    (s.voice e.voice).owner = some ⟨c, .brk⟩ → s.flight c = some r → s.record c r.number = some r →
    r.state = .onAir → r.run = some u →
    let at_ := e.ac + e.shift
    let moved (f : Part → Part) : State := (s.setEvents rest).setCh c { s.ch c with
      queue := withPart r.number p.kind f (s.ch c).queue }
    (e.kind = .started → u.parts.find? (fun x => x.voice == e.voice && x.state == .primed) = some p →
      (p.kind = .fill ∨ ∃ m, p.kind = .item 1 m) →
      exec .voiceEventDelivery s = .next (moved fun x => { x with
        state := .sounding, startAC := some at_, fade := p.fade }))
      ∧ (∀ k m j q it f, e.kind = .started →
          u.parts.find? (fun x => x.voice == e.voice && x.state == .primed) = some p →
          p.kind = .item (k + 1) m → 1 ≤ k →
          u.parts.find? (fun x => PartKind.isPlacedItem k x.kind) = some q → q.kind = .item k j →
          q.state = .sounding → q.fade = .none → r.items[j - 1]? = some it → it.fadeOut = some f →
          (s.voice q.voice).state = .playing →
        ∃ t, exec .voiceEventDelivery s = .next t ∧ t.events = rest
          ∧ t.voice q.voice = { s.voice q.voice with
              ramp := some ⟨0, min (max f.rate 1) 255, min f.interval 3, true⟩, staged := none }
          ∧ (∀ v, v ≠ q.voice → t.voice v = s.voice v)
          ∧ t.ch c = { s.ch c with
              queue := withPart r.number q.kind (fun x => { x with fade := .own })
                (withPart r.number p.kind (fun x => { x with
                  state := .sounding, startAC := some at_, fade := p.fade }) (s.ch c).queue) }
          ∧ (∀ d, d ≠ c → t.ch d = s.ch d) ∧ t.asrun = s.asrun ∧ t.store = s.store
          ∧ t.clock = s.clock ∧ t.memory = s.memory)
      ∧ (e.kind ≠ .started →
          u.parts.find? (fun x => x.voice == e.voice && x.state == .sounding) = some p →
          (∀ x ∈ u.parts, x.voice = e.voice → x.state ≠ .waiting) →
        exec .voiceEventDelivery s = .next (moved fun x => { x with
          state := .finished, endAC := some at_, finish := some e.kind }))
      ∧ ∀ plan q k m it i start, s.formed → e.kind ≠ .started →
          u.parts.find? (fun x => x.voice == e.voice && x.state == .sounding) = some p →
          u.parts.find? (fun x => x.voice == e.voice && x.state == .waiting) = some q →
          q.kind = .item k m → q.kind ≠ p.kind → r.plan = some plan → r.start = some start →
          r.items[m - 1]? = some it → plan.items.find? (fun x => x.number == m) = some i →
          (s.voice e.voice).state = .reserved → (∀ y ∈ rest, y.voice ≠ e.voice) →
          (s.entry it.clip).state = .ready →
        ∃ t, exec .voiceEventDelivery s = .next t ∧ t.events = rest
          ∧ (t.voice e.voice).state = .primed ∧ (t.voice e.voice).clip = some it.clip
          ∧ (t.voice e.voice).owner = some ⟨c, .brk⟩
          ∧ (t.voice e.voice).startFrame = some (start + BitVec.ofInt 32 i.start)
          ∧ (t.voice e.voice).step = min (max i.step 32768) 98304
          ∧ (t.voice e.voice).index = 0 ∧ (t.voice e.voice).fraction = 0
          ∧ (t.voice e.voice).loop = none
          ∧ (t.voice e.voice).code =
              (if it.fadeIn.isSome then 0 else targetCode it.level (s.entry it.clip).trim)
          ∧ (∀ v, v ≠ e.voice → t.voice v = s.voice v)
          ∧ t.ch c = { s.ch c with
              queue := withPart r.number q.kind (fun x => { x with state := .primed })
                (withPart r.number p.kind (fun x => { x with
                  state := .finished, endAC := some at_, finish := some e.kind }) (s.ch c).queue) }
          ∧ (∀ d, d ≠ c → t.ch d = s.ch d) ∧ t.asrun = s.asrun ∧ t.clock = s.clock
          ∧ t.memory = s.memory

/-! ### Breaks (chapters 6 to 8) -/

/-- BREAK_OPEN: in the frame at S the channel goes from PREROLL to ON_BREAK, its gain fades to the
break's network level over J_o, and the record is ON_AIR; nothing else changes.  With J_o = 0 the gain
stands at the level at once, and the rate 1 stored beside it is the model's choice (log entry 22).
(Stated for a preroll that came from NETWORK.) -/
def Obligations.BreakOpensAtItsStart : Prop :=
  ∀ (c : Fin 4) (s : State) (r : BreakRecord), midFrame s → s.flight c = some r →
    r.state = .preroll → r.start = some s.nextAC → (s.ch c).state = .preroll →
    (s.ch c).origin = some .network →
    exec (.breakOpen c.val) s = .next (s.setCh c { s.ch c with
      state := .onBreak, origin := none, returning := false, emClear := false
      gain := if (s.ch c).config.openFade = 0 then min r.netLevel 4095 else (s.ch c).gain
      gainTarget := min r.netLevel 4095
      gainRate := fadeRate (distance (min r.netLevel 4095) (s.ch c).gain) (s.ch c).config.openFade
      queue := (s.ch c).queue.map fun q =>
        if q.number = r.number then { q with state := .onAir } else q })

/-- JOIN: when the frame at X has been formed the record is JOINING, the channel is JOINING with its
gain fading to unity over J_j, a sounding voice of the break fades to zero over J_j and a primed one
returns to RESERVED; every voice that is not the break's is unchanged.  (Stated for a gain that
still has to move.) -/
def Sys2Proof.Machine.Claim.joinBeginsAtTheReturn : Prop :=
  ∀ (c : Fin 4) (s : State) (r : BreakRecord) (p : Plan), s.forming.opened = false →
    s.settled = true → s.flight c = some r → r.state = .onAir → r.plan = some p →
    p.ret = s.clock.ac → s.clock.noneFormed = false → (s.ch c).state = .onBreak →
    (s.ch c).gain ≠ 3840 → (s.ch c).config.joinFade ≠ 0 →
    ∃ t, exec (.join c.val) s = .next t
      ∧ (t.ch c).state = .joining ∧ (t.ch c).gain = (s.ch c).gain ∧ (t.ch c).gainTarget = 3840
      ∧ (t.ch c).gainRate = fadeRate (distance 3840 (s.ch c).gain) (s.ch c).config.joinFade
      ∧ (t.record c r.number).map (fun q => q.state) = some .joining
      ∧ (∀ v ∈ r.voices, (s.voice v).state = .playing → t.voice v = { s.voice v with
          ramp := some ⟨0, fadeRate (s.voice v).code (s.ch c).config.joinFade, 0, true⟩
          staged := none })
      ∧ (∀ v ∈ r.voices, (s.voice v).state = .primed →
          t.voice v = { s.voice v with state := .reserved })
      ∧ (∀ v, v ∉ r.voices → t.voice v = s.voice v)
      ∧ (∀ d, d ≠ c → t.ch d = s.ch d)
      ∧ t.events = s.events ∧ t.memory = s.memory ∧ t.store = s.store ∧ t.clock = s.clock
      ∧ t.tx = s.tx ∧ t.asrun = s.asrun

/-- What an item or the fill came to: outcome, cause and airing. -/
abbrev Sys2Proof.Machine.Claim.Came := AirOutcome × Cause × Option Aired

/-- One ITEM record per item of a planned break, in item order (R132, R151). -/
def Sys2Proof.Machine.Claim.itemRecords (s : State) (c : Fin 4) (r : BreakRecord) (plan : Plan)
    (came : PlanItem → Came) : List AsRunRecord :=
  (r.items.zipIdx 1).filterMap fun q =>
    (plan.items.find? fun i => i.number == q.2).map fun i => {
      channel := c, kind := .item, breakNo := some r.number, itemNo := some q.2, clip := q.1.clip
      spotKey := (s.entry q.1.clip).spotKey, outcome := (came i).1, cause := (came i).2.1
      late := plan.late, planned := some (r.start.getD 0 + BitVec.ofInt 32 i.start)
      aired := (came i).2.2, squeeze := i.squeeze }

/-- The FILL record of a break (R132, R151). -/
def Sys2Proof.Machine.Claim.fillRecord (s : State) (c : Fin 4) (r : BreakRecord) (plan : Plan)
    (came : Came) : AsRunRecord where
  channel := c
  kind := .fill
  breakNo := some r.number
  itemNo := none
  clip := r.fillClip.getD 0
  spotKey := (s.entry (r.fillClip.getD 0)).spotKey
  outcome := came.1
  cause := came.2.1
  late := plan.late
  planned := some (plan.fillStart.getD 0)
  aired := came.2.2
  squeeze := none

/-- The two ACs of a part that aired, and the frames between. -/
def Sys2Proof.Machine.Claim.airing (p : Part) : Option Aired :=
  match p.startAC, p.endAC with
  | some a, some b => some ⟨a, b, (b - a).toNat⟩
  | _, _ => none

/-- What an item of a completed break came to (R144). -/
def Sys2Proof.Machine.Claim.itemCame (u : Run) (i : PlanItem) : Came :=
  match i.disp, u.parts.find? (fun x => PartKind.isItem i.number x.kind) with
  | .dropped cause, _ => (.dropped, cause, none)
  | .placed, none => (.dropped, u.cause, none)
  | .placed, some p =>
    if p.state ≠ .finished then (.dropped, u.cause, none)
    else if p.finish = some .ended ∨ p.fade ≠ .join then (.full, .none, airing p)
    else (.cut, u.cause, airing p)

/-- The records of a completed break: one per item, then the FILL record of a FINISHED fill (R144). -/
def Sys2Proof.Machine.Claim.joinRecords (s : State) (c : Fin 4) (r : BreakRecord) (plan : Plan)
    (u : Run) : List AsRunRecord :=
  itemRecords s c r plan (itemCame u)
    ++ ((u.parts.find? fun x => PartKind.isFill x.kind).toList.filter fun p =>
        p.state == .finished).map fun p => fillRecord s c r plan
          (if u.cause = .time then (.full, .none, airing p) else (.cut, u.cause, airing p))

/-- The end of a join (R71, R143, R144): with the finishing event of the last part that sounds or is
primed, break clear is sent. With the gain at unity the channel enters NETWORK, the records of the break
are handed over (one per item in item order, then the fill's when it FINISHED), both voices are FREE,
the record leaves the queue and its holds go back; with the gain still moving the mark is kept and the
channel stays in JOINING. -/
def Sys2Proof.Machine.Claim.joinEndsWithTheLastVoice : Prop :=
  ∀ (s : State) (e : VoiceEvent) (rest : List VoiceEvent) (c : Fin 4) (r : BreakRecord) (u : Run)
      (p : Part), s.forming.opened = false → s.settled = true → s.events = e :: rest →
    e.kind ≠ .started → (s.voice e.voice).owner = some ⟨c, .brk⟩ → s.flight c = some r →
    s.record c r.number = some r → r.state = .joining → r.run = some u →
    u.parts.find? (fun x => x.voice == e.voice && x.state == .sounding) = some p →
    (∀ x ∈ u.parts, x.kind ≠ p.kind → x.state ≠ .primed ∧ x.state ≠ .sounding) →
    (s.ch c).state = .joining →
    let done (x : Part) : Part :=
      { x with state := .finished, endAC := some (e.ac + e.shift), finish := some e.kind }
    let v := { u with parts := u.parts.map fun x => if x.kind = p.kind then done x else x }
    ((s.ch c).gain ≠ 3840 → exec .voiceEventDelivery s = .next ((s.setEvents rest).setCh c { s.ch c with
        breakClear := true, queue := withPart r.number p.kind done (s.ch c).queue }))
      ∧ ∀ plan a b, (s.ch c).gain = 3840 → s.formed → r.plan = some plan →
        plan.voices = some (a, b) → a ≠ b →
        (s.voice a).state ≠ .free → (s.voice b).state ≠ .free →
        let rows := joinRecords s c r plan v
        s.asrun.records.length + rows.length ≤ 256 →
        ∃ t, exec .voiceEventDelivery s = .next t
          ∧ (t.ch c).state = .network ∧ (t.ch c).gain = 3840
          ∧ (t.ch c).queue = (s.ch c).queue.filter (fun q => q.number != r.number)
          ∧ t.asrun = ⟨s.asrun.records ++ rows, s.asrun.lost⟩
          ∧ t.voice a = Voice.freed ∧ t.voice b = Voice.freed
          ∧ (∀ w, w ≠ a → w ≠ b → t.voice w = s.voice w)
          ∧ (∀ n, (t.entry n).hold = (s.entry n).hold - (r.clips.count n
              + (if (s.voice a).clip = some n then 1 else 0)
              + if (s.voice b).clip = some n then 1 else 0))
          ∧ (∀ d, d ≠ c → t.ch d = s.ch d) ∧ t.memory = s.memory ∧ t.clock = s.clock

/-- How the items of a joined break are recorded (R144): a dropped one DROPPED with the cause of its
plan; a part that FINISHED is FULL when its clip ran to its end or no join fade was in force, and CUT
with the return cause otherwise, with its two ACs and the frames between; a part that never FINISHED
is DROPPED with the return cause. -/
def Sys2Proof.Machine.Claim.joinedItemsAreRecorded : Prop :=
  ∀ (u : Run) (i : PlanItem),
    (∀ cause, i.disp = .dropped cause → joinEnding u i = (.dropped, cause, none))
      ∧ ∀ p, i.disp = .placed → u.parts.find? (fun x => PartKind.isItem i.number x.kind) = some p →
        (∀ x y, p.state = .finished → p.startAC = some x → p.endAC = some y →
          joinEnding u i = (if p.finish = some .ended ∨ p.fade ≠ .join
            then (.full, .none, some ⟨x, y, (y - x).toNat⟩)
            else (.cut, u.cause, some ⟨x, y, (y - x).toNat⟩)))
          ∧ (p.state ≠ .finished → joinEnding u i = (.dropped, u.cause, none))

/-- The record of an item that never aired and was never planned. -/
def Sys2Proof.Machine.Claim.missedRow (s : State) (c : Fin 4) (r : BreakRecord) (late : Bool)
    (planned : AC) (number clip : Nat) : AsRunRecord where
  channel := c
  kind := .item
  breakNo := some r.number
  itemNo := some number
  clip := clip
  spotKey := (s.entry clip).spotKey
  outcome := .notAired
  cause := .missed
  late := late
  planned := some planned
  aired := none
  squeeze := none

/-- One such record per item, in item order. -/
def Sys2Proof.Machine.Claim.missedRows (s : State) (c : Fin 4) (r : BreakRecord) (late : Bool)
    (planned : AC) : List AsRunRecord :=
  (r.items.zipIdx 1).map fun q => missedRow s c r late planned q.2 q.1.clip

/-- A record leaves its channel: these as-run records are handed over, its holds return, its place in the
queue is closed, and its items go back to the pool. -/
def Sys2Proof.Machine.Claim.leaves (c : Fin 4) (r : BreakRecord) (rows : List AsRunRecord)
    (s t : State) : Prop :=
  t.asrun = ⟨s.asrun.records ++ rows, s.asrun.lost⟩
    ∧ t.ch c = { s.ch c with queue := (s.ch c).queue.filter fun q => q.number != r.number }
    ∧ (∀ d, d ≠ c → t.ch d = s.ch d)
    ∧ (∀ n, (t.entry n).hold = (s.entry n).hold - r.clips.count n)
    ∧ t.memory = s.memory ∧ t.clock = s.clock ∧ t.tx = s.tx ∧ t.rx = s.rx ∧ t.lane = s.lane
    ∧ t.voices = s.voices ∧ t.events = s.events ∧ t.cmd = s.cmd

/-- A record leaves its channel with one NOT_AIRED, MISSED record per item, the planned start given. -/
def Sys2Proof.Machine.Claim.missed (c : Fin 4) (r : BreakRecord) (late : Bool) (planned : AC)
    (s t : State) : Prop :=
  leaves c r (missedRows s c r late planned) s t

/-- BREAK_EXPIRY: a PENDING record whose expiry the next frame reaches or has passed is missed and
removed. -/
def Sys2Proof.Machine.Claim.expiredBreakIsMissed : Prop :=
  ∀ (c : Fin 4) (s : State) (r : BreakRecord) (m : AC), midFrame s → s.formed →
    1 ≤ r.number → r.number ≤ 65535 → s.record c r.number = some r → r.state = .pending →
    r.expiry = some m → acAtOrBefore m s.nextAC = true →
    s.asrun.records.length + r.items.length ≤ 256 →
    (∀ n ∈ r.clips, (s.entry n).state = .ready) →
    ∃ t, exec (.breakExpiry c.val r.number) s = .next t ∧ missed c r false m s t

/-- TIME_TRIGGER on a channel with one record, TIME and PENDING, whose target is 64 frames ahead of
the next frame or nearer: later than the late grace it is missed with the late flag; on a channel
that is not free it waits; on a free one the trigger is taken with S 64 frames ahead and D at the
target plus the window, S itself when that has passed, none without a window.  The channel is judged
once in the frame. -/
def Sys2Proof.Machine.Claim.timeBreakIsTriggered : Prop :=
  ∀ (c : Fin 4) (s : State) (r : BreakRecord) (target : AC), midFrame s → s.formed →
    s.forming.timeJudged.contains c = false → (s.ch c).queue = [r] → r.state = .pending →
    r.trigger = .time target → acAtOrBefore (target - 64) s.nextAC = true →
    let late := (s.nextAC + 64 - target).toNat
    let judged (t : State) : State :=
      t.setForming { t.forming with timeJudged := c :: t.forming.timeJudged }
    ((s.ch c).config.lateGrace < late → s.asrun.records.length + r.items.length ≤ 256 →
        (∀ n ∈ r.clips, (s.entry n).state = .ready) →
        ∃ t, exec (.timeTrigger c.val) s = .next (judged t) ∧ missed c r true target s t)
      ∧ (late ≤ (s.ch c).config.lateGrace → s.freeForBreak c = false →
        exec (.timeTrigger c.val) s = .next (judged s))
      ∧ (late ≤ (s.ch c).config.lateGrace → s.freeForBreak c = true →
        exec (.timeTrigger c.val) s = .next (judged (acceptTrigger c r.number (s.nextAC + 64)
          (if r.window = 0 then none
            else if r.window ≤ late then some (s.nextAC + 64)
            else some (target + BitVec.ofNat 32 r.window)) (decide (0 < late)) s).2))

/-- The fill a trigger leaves the record with (R111): its own, or the channel's fill clip when that is
READY. -/
def Sys2Proof.Machine.Claim.fillTaken (c : Fin 4) (s : State) (r : BreakRecord) : Option Nat :=
  match r.fillClip with
  | some n => some n
  | none => (s.ch c).config.fillClip.filter fun n => (s.entry n).state == .ready

/-- An accepted trigger whose plan has a placed item and whose claim is granted: the channel enters
PREROLL from NETWORK or EMERGENCY, the record is in PREROLL with S, D, its fill (its own, or the
channel's when that is READY) and the plan, its run record has
one part per placed item and one for a planned fill, and its two voices are the two lowest FREE
ones. -/
def Obligations.GrantedTriggerStartsThePreroll : Prop :=
  ∀ (c : Fin 4) (s : State) (r : BreakRecord) (start : AC) (deadline : Option AC) (late : Bool)
    (a b : Fin 16) (free : List (Fin 16)),
    s.record c r.number = some r → r.state = .pending →
    ((s.ch c).state = .network ∨ (s.ch c).state = .emergency) →
    s.freeVoices = a :: b :: free → 2 + s.reserve ≤ s.freeVoices.length →
    let fill := fillTaken c s r
    let plan := makePlan {
      start := start, deadline := deadline, late := late, items := planItems s r
      fill := fill.isSome, joinFade := (s.ch c).config.joinFade
      threshold := (s.ch c).config.fillThreshold }
    plan.isEmpty = false →
    ∃ t q, acceptTrigger c r.number start deadline late s = (.granted, t)
      ∧ t.record c r.number = some q ∧ q.state = .preroll ∧ q.start = some start
      ∧ q.deadline = deadline ∧ q.fillClip = fill ∧ q.plan = some { plan with voices := some (a, b) }
      ∧ q.parts.length = plan.placed.length + (if plan.fillStart.isSome then 1 else 0)
      ∧ (t.ch c).state = .preroll
      ∧ (t.ch c).origin = (if (s.ch c).state = .network then some .network else some .emergency)
      ∧ (∀ v, v = a ∨ v = b → (t.voice v).owner = some ⟨c, .brk⟩ ∧ (t.voice v).state ≠ .free)
      ∧ (∀ v, v ≠ a → v ≠ b → t.voice v = s.voice v)
      ∧ t.asrun = s.asrun ∧ t.memory = s.memory ∧ t.clock = s.clock

/-- The plan of a hard break with deadline D: the return point X is S plus a number of frames that is at
most the window less the join's fade and at least the lesser of that and 0, every item of the record has
its place in the plan, the squeeze factor lies between no squeeze and the greatest, and only a DROP item
is dropped to make the break fit. -/
def Sys2Proof.Machine.Claim.hardPlanReturnsInTime : Prop :=
  ∀ (q : PlanInput) (d : AC), q.deadline = some d →
    let edge : Int := (d - q.start).toNat - 32 * (q.joinFade : Int)
    (∃ x : Int, (makePlan q).ret = q.start + BitVec.ofInt 32 x ∧ min 0 edge ≤ x ∧ x ≤ edge)
      ∧ (makePlan q).items.map (fun i => i.number) = q.items.map (fun i => i.number)
      ∧ 65536 ≤ (makePlan q).factor ∧ (makePlan q).factor ≤ 68157
      ∧ ((q.items.map fun i => i.number).Nodup → (∀ i ∈ q.items, i.disp = .placed) →
          ∀ i ∈ (makePlan q).items, i.disp = .dropped .fit → i.cls = .drop)

/-- A trigger that ends at once (R129, R131).  With no PLACED item the record leaves with a DROPPED record
per item, with the cause of the plan.  With a PLACED item and fewer FREE voices than two and the
reserve it leaves with a NOT_AIRED, NO_VOICE record per item, and BREAK_FAILED is raised.  Planned
starts, squeeze factors and the late flag are the plan's.  A hold the trigger took on the channel's
fill clip goes back with the others. -/
def Sys2Proof.Machine.Claim.triggerMayEndAtOnce : Prop :=
  ∀ (c : Fin 4) (s : State) (r : BreakRecord) (start : AC) (deadline : Option AC) (late : Bool),
    s.formed → s.record c r.number = some r → r.state = .pending →
    (∀ n ∈ r.clips, (s.entry n).state = .ready) →
    s.asrun.records.length + r.items.length ≤ 256 →
    let fill := fillTaken c s r
    let plan := makePlan {
      start := start, deadline := deadline, late := late, items := planItems s r
      fill := fill.isSome, joinFade := (s.ch c).config.joinFade
      threshold := (s.ch c).config.fillThreshold }
    let rows (ending : PlanItem → AirOutcome × Cause) : List AsRunRecord :=
      List.zipWith (fun (q : Item) (i : PlanItem) => {
        channel := c, kind := .item, breakNo := some r.number, itemNo := some i.number
        clip := q.clip, spotKey := (s.entry q.clip).spotKey, outcome := (ending i).1
        cause := (ending i).2, late := late, planned := some (start + BitVec.ofInt 32 i.start)
        aired := none, squeeze := i.squeeze }) r.items plan.items
    ((∀ i ∈ plan.items, ∃ cause, i.disp = .dropped cause) →
        ∃ t, acceptTrigger c r.number start deadline late s = (.emptyPlan, t)
          ∧ leaves c r (rows fun i => (.dropped,
              match i.disp with | .dropped cause => cause | .placed => .none)) s t)
      ∧ ((∃ i ∈ plan.items, i.disp = .placed) → s.freeVoices.length < 2 + s.reserve →
        ∃ t, acceptTrigger c r.number start deadline late s = (.refused, t)
          ∧ leaves c r (rows fun _ => (.notAired, .noVoice)) s t
          ∧ (s.asrun.records.length + r.items.length < 192 ∨ 192 ≤ s.asrun.records.length →
            t.alert = (raiseAlert .breakFailed s).alert))

/-- ASSEMBLY_TIMEOUT: an assembly still open in the frame at its deadline is discarded, with a TIMEOUT
report to its owner when the reply queue has room, and a drop counted when it has none. -/
def Sys2Proof.Machine.Claim.assemblyTimesOut : Prop :=
  ∀ (s : State) (a : Assembly), midFrame s → s.cmd.assembly = some a → a.deadline = s.nextAC →
    exec .assemblyTimeout s = .next (s.setCmd (
      if s.cmd.replies.length < 16 then { s.cmd with
        assembly := none
        replies := s.cmd.replies ++ [{
          kind := 0x30, dest := a.owner, src := s.lane.unitAddr
          payload := toBytes a.header.code 1 ++ [2] ++ toBytes a.header.tag 2 ++ toBytes 1024 2
            ++ [0, 0] }] }
      else { s.cmd with
        assembly := none, reportDrops := min (s.cmd.reportDrops + 1) 65535 }))

/-! ### Contacts (section 9.3) -/

/-- GPI_LEVEL_CHANGE with every line's function NONE: each line takes one sample; a sample that agrees
with the stable level ends the change run, and the fifth differing one in a row changes the level;
but for the alert unit nothing else changes, and that neither while no line's source is in the
mask. -/
def Sys2Proof.Machine.Claim.contactLinesAreDebounced : Prop :=
  ∀ (gpi : Byte) (s : State), midFrame s → s.nextAC.toNat % 32 = 0 → s.forming.sampled = false →
    (∀ g : Fin 8, (s.gpiLine g).fn = .none) →
    ∃ t, exec (.gpiLevelChange gpi) s = .next t
      ∧ (∀ g : Fin 8, t.gpiLine g =
          if gpi.getLsbD g.val = (s.gpiLine g).stable then { s.gpiLine g with run := 0 }
          else if (s.gpiLine g).run < 4 then { s.gpiLine g with run := (s.gpiLine g).run + 1 }
          else { s.gpiLine g with stable := gpi.getLsbD g.val, run := 0 })
      ∧ t.forming = { s.forming with sampled := true }
      ∧ ((∀ g : Fin 8, (s.alert.mask &&& (AlertSource.gpi g).mask) = 0) → t.alert = s.alert)
      ∧ t.chans = s.chans ∧ t.voices = s.voices ∧ t.store = s.store ∧ t.asrun = s.asrun
      ∧ t.clock = s.clock ∧ t.tx = s.tx ∧ t.cmd = s.cmd ∧ t.memory = s.memory ∧ t.rx = s.rx
      ∧ t.lane = s.lane ∧ t.cues = s.cues ∧ t.events = s.events ∧ t.reserve = s.reserve
      ∧ t.gpo = s.gpo ∧ t.pending = s.pending

/-- A rising edge acts by the function of its line (R163), after the level is reported: NONE and MIC_LIVE
do nothing more; BREAK fires the first PENDING MANUAL record of a channel that is free, with S 64 frames
after the last frame formed and D from the window, and counts a refusal otherwise; ABORT aborts the
break in flight, if any; EMERGENCY starts a fill on an enabled channel in NETWORK without one that has
an emergency clip, and does nothing otherwise; CART requests the cart, and a HALTED channel counts and
reports a refusal. -/
def Sys2Proof.Machine.Claim.risingEdgesAct : Prop :=
  ∀ (s : State) (g : Fin 8), (s.gpiLine g).stable = false → (s.gpiLine g).run = 4 →
    let u := raiseAlert (.gpi g) (s.setGpiLine g { s.gpiLine g with stable := true, run := 0 })
    let fn := (s.gpiLine g).fn
    let firable (q : BreakRecord) : Bool := q.state == .pending && q.trigger == .manual
    ((fn = .none ∨ ∃ c, fn = .micLive c) → sampleLine g true s = u)
      ∧ (∀ c, fn = .brk c →
          (∀ r, s.freeForBreak c = true → (s.ch c).queue.find? firable = some r →
            sampleLine g true s = (acceptTrigger c r.number (s.clock.ac + 64)
              (if r.window = 0 then none else some (s.clock.ac + 64 + BitVec.ofNat 32 r.window))
              false u).2)
          ∧ ((s.freeForBreak c = false ∨ (s.ch c).queue.find? firable = none) →
            sampleLine g true s = u.setCh c { s.ch c with
              fireRefusals := min ((s.ch c).fireRefusals + 1) 65535 }))
      ∧ (∀ c, fn = .abort c → (s.flight c = none → sampleLine g true s = u)
          ∧ sampleLine g true s = (abortBreak c u).2)
      ∧ (∀ c, fn = .emergency c →
          let may := (s.ch c).config.enable = true ∧ (s.ch c).state = .network
            ∧ (s.ch c).monitor.phase = .none
          (¬may ∨ (s.ch c).config.emClip = none → sampleLine g true s = u)
          ∧ ∀ clip, may → (s.ch c).config.emClip = some clip →
            sampleLine g true s = startEmergency c clip u)
      ∧ ∀ c clip level, fn = .cart c clip level →
          sampleLine g true s = (requestCart c clip level u).2
          ∧ ((s.ch c).state = .halted → sampleLine g true s = raiseAlert .cartRefused (u.setCh c {
              s.ch c with cartRefusals := min ((s.ch c).cartRefusals + 1) 65535 }))

/-- GPI_LEVEL_CHANGE in which line g takes its fifth differing sample upward while every other line's sample
agrees with its stable level: the line's rising edge acts as said of one sample, and the frame's samples
are taken. -/
def Sys2Proof.Machine.Claim.risingEdgeInAFrame : Prop :=
  ∀ (gpi : Byte) (s : State) (g : Fin 8), midFrame s → s.nextAC.toNat % 32 = 0 →
    s.forming.sampled = false → gpi.getLsbD g.val = true → (s.gpiLine g).stable = false →
    (s.gpiLine g).run = 4 →
    (∀ k : Fin 8, k ≠ g → (s.gpiLine k).run = 0 ∧ gpi.getLsbD k.val = (s.gpiLine k).stable) →
    let t := sampleLine g true s
    exec (.gpiLevelChange gpi) s = .next (t.setForming { t.forming with sampled := true })

/-! ### Cues (chapter 5) -/

/-- A cue packet with this payload and reference frame is the oldest routed packet, and nothing the
last frame made due is still to be done. -/
def Sys2Proof.Machine.Claim.cueArrived (s : State) (payload : List Byte) (ref : AC)
    (rest : List Routed) : Prop :=
  s.settled = true ∧ ∃ dest src, s.cmd.inbox = ⟨.cue, dest, src, payload, ref⟩ :: rest

/-- The cue taken from the lane parser and counted. -/
def Sys2Proof.Machine.Claim.counted (s : State) (rest : List Routed) : State :=
  (s.setCmd { s.cmd with inbox := rest }).setCues { s.cues with cue := min (s.cues.cue + 1) 65535 }

/-- OPEN for one channel c, in range: a PENDING CUE record of the channel with the key, the first in
queue order, takes the trigger when the channel is free, with S the reference frame plus the larger
of the offset and 64, and D from the window; a channel that is not free is counted and reported as
refused, an enabled channel without such a record as unmatched, and a disabled one is passed over. -/
def Obligations.OpenCueTriggersTheBreak : Prop :=
  ∀ (c : Fin 4) (s : State) (key offset window : Nat) (ref : AC) (rest : List Routed),
    key < 2 ^ 32 → offset ≤ 480000 → window ≤ 14400000 →
    cueArrived s ([1, BitVec.ofNat 8 (2 ^ c.val)] ++ toBytes key 4 ++ toBytes offset 4
      ++ toBytes window 4) ref rest →
    let u := counted s rest
    let found := (s.ch c).queue.find? fun r => r.state == .pending && r.trigger == .cue key
    ((s.ch c).config.enable = false → exec .openCue s = .next u)
      ∧ ((s.ch c).config.enable = true → found = none →
        exec .openCue s = .next (raiseAlert .cueUnmatched (u.setCues { u.cues with
          unmatched := min (u.cues.unmatched + 1) 65535 })))
      ∧ (∀ r, (s.ch c).config.enable = true → found = some r → s.freeForBreak c = false →
        exec .openCue s = .next (raiseAlert .cueRefused (u.setCues { u.cues with
          refused := min (u.cues.refused + 1) 65535 })))
      ∧ ∀ r, found = some r → s.freeForBreak c = true →
        let w := if 0 < window then window else r.window
        let start := ref + BitVec.ofNat 32 (max offset 64)
        exec .openCue s = .next (acceptTrigger c r.number start
          (if w = 0 then none
            else if offset + w ≤ max offset 64 then some start
            else some (ref + BitVec.ofNat 32 (offset + w))) false u).2

/-- CLOSE for one channel c, in range: an ON_AIR break that the key fits, with its close moment ahead
and before X, has X moved to that moment with the return cause CLOSE; a channel without a break in
flight, or with one the key does not fit, is counted and reported as unmatched.  In the frame at S with
the open already taken, R147 lets a close before X join at once: that it waits for its moment there too
is the model's choice (log entry 51).  (Left out: a break in PREROLL, which a close withdraws; a moment
already formed, which joins at once; a moment at or after X, and a break in JOINING, which change
nothing.) -/
def Obligations.CloseCueMovesTheReturn : Prop :=
  ∀ (c : Fin 4) (s : State) (key offset : Nat) (ref : AC) (rest : List Routed),
    key < 2 ^ 32 → offset ≤ 480000 → (s.ch c).config.enable = true →
    cueArrived s ([2, BitVec.ofNat 8 (2 ^ c.val)] ++ toBytes key 4 ++ toBytes offset 4) ref rest →
    let u := counted s rest
    let m := ref + BitVec.ofNat 32 offset
    (∀ r p, s.flight c = some r → r.state = .onAir → r.plan = some p →
        (key = 0 ∨ r.trigger = .cue key) → acBefore m p.ret = true → acBefore s.clock.ac m = true →
        exec .closeCue s = .next (u.setCh c { s.ch c with
          queue := (s.ch c).queue.map fun q => if q.number = r.number then { q with
            plan := q.plan.map fun p => { p with ret := m }
            run := q.run.map fun x => { x with cause := .close } } else q }))
      ∧ ((s.flight c = none ∨ ∃ r, s.flight c = some r ∧ key ≠ 0 ∧ r.trigger ≠ .cue key) →
        exec .closeCue s = .next (raiseAlert .cueUnmatched (u.setCues { u.cues with
          unmatched := min (u.cues.unmatched + 1) 65535 })))

/-- RECORD_START and RECORD_STOP in range: the first armed library clip with the spot key becomes the
busy ingest, FILLING from its first page with the start moment and reference frame; a busy engine and
an unmatched key are counted.  A stop for the busy clip whose moment lies ahead of every frame
captured or delivered is kept as the stop moment; a stop at an idle engine is counted as unmatched.
(A stop at or before the last frame delivered is left out.) -/
def Obligations.RecordingCuesStartAndStop : Prop :=
  (∀ (s : State) (key : BitVec 32) (offset : Nat) (mask : Byte) (ref : AC) (rest : List Routed),
    offset ≤ 480000 →
    cueArrived s ([3, mask] ++ toBytes key.toNat 4 ++ toBytes offset 4) ref rest →
    let u := counted s rest
    let found := s.store.armList.find? fun a => (s.entry a.clip).spotKey == key
    (found = none → exec .recordStart s = .next (u.setCues { u.cues with
        recordUnmatched := min (u.cues.recordUnmatched + 1) 65535 }))
      ∧ (∀ a, found = some a → s.store.engine.isSome = true →
        exec .recordStart s = .next (u.setCues { u.cues with
          recordBusy := min (u.cues.recordBusy + 1) 65535 }))
      ∧ ∀ a, found = some a → s.store.engine = none → (s.entry a.clip).region = .library →
        exec .recordStart s = .next
          (let t := u.setEntry a.clip { s.entry a.clip with state := .filling }
          t.setStore { t.store with
            armList := s.store.armList.filter fun x => x.clip != a.clip
            engine := some {
              arm := a, words := 0, failed := 0
              start := some (ref + BitVec.ofNat 32 offset, ref)
              stop := none, captured := [], ending := none } }))
  ∧ ∀ (s : State) (key : BitVec 32) (offset : Nat) (mask : Byte) (ref : AC) (rest : List Routed),
    offset ≤ 480000 →
    cueArrived s ([4, mask] ++ toBytes key.toNat 4 ++ toBytes offset 4) ref rest →
    let u := counted s rest
    let m := ref + BitVec.ofNat 32 offset
    (s.store.engine = none → exec .recordStop s = .next (u.setCues { u.cues with
        recordUnmatched := min (u.cues.recordUnmatched + 1) 65535 }))
      ∧ ∀ g, s.store.engine = some g → g.stop = none → (s.entry g.arm.clip).spotKey = key →
        (∀ f ∈ g.captured, acAtOrAfter f.carrying m = false) →
        (∀ last, s.tx.lastCarrying = some last → acAtOrBefore m last = false) →
        exec .recordStop s = .next (u.setStore { s.store with
          engine := some { g with stop := some m } })

/-- TIME_MARK in range captures the reference frame, the seconds and the frame; a cue of an unknown
kind is counted as unknown and one without a byte as malformed; nothing else changes.  (That the row
UNKNOWN_CUE takes the cue without a byte is log entry 21.) -/
def Sys2Proof.Machine.Claim.timeMarkIsCaptured : Prop :=
  (∀ (s : State) (seconds frame : Nat) (mask : Byte) (fill : BitVec 32) (ref : AC)
      (rest : List Routed), seconds ≤ 86399 → frame ≤ 47999 →
    cueArrived s ([5, mask] ++ toBytes seconds 4 ++ toBytes fill.toNat 4 ++ toBytes frame 2) ref
      rest →
    exec .timeMark s = .next ((counted s rest).setClock { s.clock with
      mark := ⟨true, ref, seconds, frame⟩ }))
  ∧ (∀ (s : State) (kind : Byte) (more : List Byte) (ref : AC) (rest : List Routed),
    kind.toNat = 0 ∨ 5 < kind.toNat → cueArrived s (kind :: more) ref rest →
    exec .unknownCue s = .next ((counted s rest).setCues { (counted s rest).cues with
      unknown := min (s.cues.unknown + 1) 65535 }))
  ∧ ∀ (s : State) (ref : AC) (rest : List Routed), cueArrived s [] ref rest →
    exec .unknownCue s = .next ((counted s rest).setCues { (counted s rest).cues with
      malformed := min (s.cues.malformed + 1) 65535 })

/-- A cue payload of a kind is malformed: a length that is not the kind's, or a field read for it that is
out of its range (R93, R94, R96 to R99, R197). -/
abbrev Sys2Proof.Machine.Claim.cueMalformed (kind : Byte) (p : List Byte) : Prop :=
  (kind = 1 ∧ (p.length ≠ 14 ∨ 15 < byteAt p 1 ∨ 480000 < field p 6 4 ∨ 14400000 < field p 10 4))
    ∨ (kind = 2 ∧ ((p.length ≠ 10 ∧ p.length ≠ 14) ∨ 15 < byteAt p 1 ∨ 480000 < field p 6 4))
    ∨ ((kind = 3 ∨ kind = 4) ∧ (p.length ≠ 10 ∨ 480000 < field p 6 4))
    ∨ (kind = 5 ∧ (p.length ≠ 12 ∨ 86399 < field p 2 4 ∨ 47999 < field p 10 2))

/-- OPEN, CLOSE, RECORD_START, RECORD_STOP and TIME_MARK with a wrong length, or a mask, offset, window,
seconds or frame out of range, are counted as malformed; the cue has no further effect. -/
def Sys2Proof.Machine.Claim.malformedCuesAreCounted : Prop :=
  ∀ (s : State) (row : Instr) (kind : Byte) (more : List Byte) (ref : AC) (rest : List Routed),
    (row, kind) ∈ [(Instr.openCue, 1), (.closeCue, 2), (.recordStart, 3), (.recordStop, 4),
      (.timeMark, 5)] →
    cueArrived s (kind :: more) ref rest → cueMalformed kind (kind :: more) →
    exec row s = .next ((counted s rest).setCues { (counted s rest).cues with
      malformed := min (s.cues.malformed + 1) 65535 })

/-! ### Arrivals and replies (sections 11.1 and 11.2) -/

/-- An 8-byte COMMAND header with flags ACK and PEEK. -/
def Sys2Proof.Machine.Claim.headerBytes (h : CmdHeader) : List Byte :=
  toBytes h.code 1 ++ [BitVec.ofNat 8 ((if h.ack then 1 else 0) + if h.peek then 2 else 0)]
    ++ toBytes h.tag 2 ++ toBytes h.maxReply 2 ++ toBytes h.total 2

/-- Every field of the header fits its bytes. -/
abbrev Sys2Proof.Machine.Claim.headerFits (h : CmdHeader) : Prop :=
  h.code < 256 ∧ h.tag < 65536 ∧ h.maxReply < 65536 ∧ h.total < 65536

/-- COMMAND with no assembly open: a body that is whole enters the command queue, a body still short
opens an assembly with its deadline 4,800 frames after the reference frame, and a full queue answers
BUSY.  COMMAND_MORE from the assembly's owner with its tag, completing the body, closes the assembly
and enters the queue.  Nothing else changes. -/
def Sys2Proof.Machine.Claim.commandPacketsBuildTheQueue : Prop :=
  (∀ (s : State) (dest src : Byte) (h : CmdHeader) (body : List Byte) (ref : AC) (rest : List Routed),
    headerFits h → h.total ≤ 2048 → s.settled = true → s.cmd.assembly = none →
    s.cmd.inbox = ⟨.command, dest, src, headerBytes h ++ body, ref⟩ :: rest →
    (body.length = h.total → s.cmd.queue.length < 8 →
        exec .command s = .next (s.setCmd { s.cmd with
          inbox := rest, queue := s.cmd.queue ++ [⟨src, h, body⟩] }))
      ∧ (body.length < h.total →
        exec .command s = .next (s.setCmd { s.cmd with
          inbox := rest, assembly := some ⟨src, h, body, ref + 4800⟩ }))
      ∧ (body.length = h.total → 8 ≤ s.cmd.queue.length →
        exec .command s = .next (immediateReport src h.code h.tag .busy
          (s.setCmd { s.cmd with inbox := rest }))))
  ∧ ∀ (s : State) (dest : Byte) (a : Assembly) (body : List Byte) (ref : AC) (rest : List Routed),
    headerFits a.header → s.settled = true → s.cmd.assembly = some a →
    s.cmd.inbox = ⟨.commandMore, dest, a.owner, toBytes a.header.tag 2 ++ body, ref⟩ :: rest →
    ((a.body ++ body).length = a.header.total → s.cmd.queue.length < 8 →
        exec .commandMore s = .next (s.setCmd { s.cmd with
          inbox := rest, assembly := none
          queue := s.cmd.queue ++ [⟨a.owner, a.header, a.body ++ body⟩] }))
      ∧ ((a.body ++ body).length < a.header.total →
        exec .commandMore s = .next (s.setCmd { s.cmd with
          inbox := rest
          assembly := some { a with body := a.body ++ body, deadline := ref + 4800 } }))

/-- REPLY_PACKET_QUEUED: the oldest packet of the build area enters the reply queue while it holds
fewer than 16; nothing else changes. -/
def Sys2Proof.Machine.Claim.replyPacketEntersTheQueue : Prop :=
  ∀ (s : State) (p : Packet) (rest : List Packet), s.cmd.build = p :: rest →
    (s.cmd.replies.length < 16 → exec .replyPacketQueued s = .next (s.setCmd { s.cmd with
        build := rest, replies := s.cmd.replies ++ [p] }))
      ∧ (16 ≤ s.cmd.replies.length → exec .replyPacketQueued s = .next s)

/-- A command row run on a state with steps still due after the last frame does those first, and then
what it does on a settled state; doing them leaves none due.  (Steps still due are the model's own, log
entries 27 and 4.) -/
def Obligations.DueStepsComeBeforeTheCommand : Prop :=
  (∀ s : State, (settle s).settled = true) ∧ (∀ s : State, s.settled = true → settle s = s)
    ∧ ∀ (s : State) (row : Command → Bool) (always : Bool) (f : Action),
      s.commandDue row = true → runRow row always f s = runRow row always f (settle s)

/-- A code that names no command is refused with UNKNOWN_COMMAND, and a body of another length than
its code's with BAD_LENGTH; the command has left the queue and nothing else changes. -/
def Obligations.UnknownCodeAndLengthAreRefused : Prop :=
  ∀ (s : State) (src : Byte) (h : CmdHeader) (body : List Byte) (rest : List Command),
    ready s src h body rest →
    (h.code ∉ knownCodes →
        answers .unknownCommand s src h (.refused .unknownCommand) (taken s rest))
      ∧ ∀ i code n, (i, code, n) ∈ [(Instr.identify, 0x01, 0), (.unitSet, 0x02, 8),
            (.deviceReset, 0x03, 0), (.statusRead, 0x04, 1), (.alertSet, 0x05, 5),
            (.alertClear, 0x06, 0), (.channelSet, 0x10, 40), (.channelReset, 0x11, 1),
            (.clockSet, 0x12, 4), (.dirRead, 0x20, 4), (.dirWrite, 0x21, 34), (.dirErase, 0x22, 2),
            (.ingestArm, 0x23, 19), (.ingestStop, 0x24, 2), (.ringRetire, 0x25, 2),
            (.breakCancel, 0x31, 3), (.breakList, 0x32, 3), (.breakFire, 0x33, 3),
            (.breakAbort, 0x34, 1), (.voiceTrim, 0x35, 4), (.cartFire, 0x36, 5), (.gpiSet, 0x40, 7),
            (.gpoSet, 0x41, 3), (.asrunFetch, 0x50, 2), (.asrunDiscard, 0x51, 2)] →
          h.code = code → body.length ≠ n →
          answers i s src h (.refused .badLength) (taken s rest)

/-! ### Unit and alert commands (sections 11.3 and 11.4) -/

/-- IDENTIFY returns the part name, the revision 1, the strap value, the two addresses and the four
sizes, whatever ACK is, and changes nothing beyond leaving the queue.  (Stated for a data limit that
the record fits; log entry 12 says what a smaller one does.) -/
def Obligations.IdentifyReturnsTheIdentity : Prop :=
  ∀ (s : State) (src : Byte) (h : CmdHeader) (rest : List Command), ready s src h [] rest →
    h.code = 0x01 → 16 ≤ dataLimit h →
    exec .identify s = .next ((taken s rest).setCmd { s.cmd with
      queue := rest
      build := [{
        kind := 0x30, dest := src, src := s.lane.unitAddr
        payload := toBytes h.code 1 ++ [0] ++ toBytes h.tag 2 ++ [0, 0, 0, 16]
          ++ [0x52, 0x41, 0x2D, 0x34, 0x31, 0x36, 1, s.lane.straps, s.lane.unitAddr,
            s.lane.groupAddr, 0x04, 0x00, 16, 4, 0x01, 0x00] }] })

/-- UNIT_SET with settings in range applies every one present and answers the five as they stand; the
holdover period and the reserve are clamped; a unit address above 239, a group address that is none,
or a library size above 4096 is refused with BAD_FIELD, a library size while an entry is not EMPTY
with STATE.  (Presence bits above bit 4 are ignored: log entry 13.) -/
def Obligations.UnitSetAppliesTheSettings : Prop :=
  ∀ (s : State) (src : Byte) (h : CmdHeader) (body : List Byte) (rest : List Command),
    ready s src h body rest → h.code = 0x02 → body.length = 8 →
    let has (i : Nat) := (byteAt body 0).testBit i
    let ua := byteAt body 1
    let ga := byteAt body 2
    let hold := field body 3 2
    let lp := field body 5 2
    let k := byteAt body 7
    let bad := has 0 && decide (239 < ua)
      || has 1 && !(ga == 0 || decide (240 ≤ ga) && decide (ga ≤ 254))
      || has 3 && decide (4096 < lp)
    let busy := has 3 && s.store.directory.any fun p => p.2.state != .empty
    (bad = true → answers .unitSet s src h (.refused .badField) (taken s rest))
      ∧ (bad = false → busy = true → answers .unitSet s src h (.refused .state) (taken s rest))
      ∧ (bad = false → busy = false →
        let t := (((taken s rest).setLane { s.lane with
            unitAddr := if has 0 then BitVec.ofNat 8 ua else s.lane.unitAddr
            groupAddr := if has 1 then BitVec.ofNat 8 ga else s.lane.groupAddr }).setTx { s.tx with
              holdover := if has 2 then min (max hold 508) 516 else s.tx.holdover }).setStore
          (if has 3 then { s.store with lp := lp, currentPage := lp, boundaryPage := lp }
            else s.store)
        let t := t.setReserve (if has 4 then min k 8 else s.reserve)
        answers .unitSet s src h (.done
          (has 2 && (decide (hold < 508) || decide (516 < hold)) || has 4 && decide (8 < k)) false
          ([t.lane.unitAddr, t.lane.groupAddr] ++ toBytes t.tx.holdover 2 ++ toBytes t.store.lp 2
            ++ toBytes t.reserve 1)) t)

/-- The holds that break records and the voices in use have on a clip. -/
def Sys2Proof.Machine.Claim.references (s : State) (n : Nat) : Nat :=
  (allChannels.map fun c => ((s.ch c).queue.map fun r => r.clips.count n).sum).sum
    + (allVoices.filter fun v => (s.voice v).state != .free && (s.voice v).clip == some n).length

/-- DEVICE_RESET: its reply is made without ACK; the command queue and the assembly are emptied; every
channel is at rest in NETWORK or HALTED with its configuration kept and no break, cart or emergency
fill; every voice is FREE; the engine is idle, the arm list empty and the last ingest report initial;
the ring and the page pointers, the air clock, clip memory, the transit, the FIFO, the reply queue, the
settings, the lock and the as-run records are kept; the counters are 0.  (The model's own count of the
free values drawn, log entry 46, is left open.) -/
def Sys2Proof.Machine.Claim.resetClearsTheWork : Prop :=
  ∀ (s : State) (src : Byte) (h : CmdHeader) (rest : List Command),
    ready s src h [] rest → h.code = 0x03 →
    (∀ v : Fin 16, (s.voice v).state ≠ .free → (s.voice v).owner.isSome = true) →
    ∃ t, exec .deviceReset s = .next t
      ∧ t.cmd = { s.cmd with
          queue := [], assembly := none, reportDrops := 0, inbox := t.cmd.inbox
          draws := t.cmd.draws
          build := replyPackets src s.lane.unitAddr h.code h.tag (.done false false []) }
      ∧ (∀ c : Fin 4, (t.ch c).config = (s.ch c).config
          ∧ (t.ch c).state = (if (s.ch c).config.enable then .network else .halted)
          ∧ (t.ch c).queue = [] ∧ (t.ch c).carts = [] ∧ (t.ch c).gain = 3840 ∧ (t.ch c).duck = 0
          ∧ (t.ch c).monitor = Monitor.powerOn
          ∧ (t.ch c).saturation = 0 ∧ (t.ch c).cartRefusals = 0 ∧ (t.ch c).fireRefusals = 0)
      ∧ (∀ v : Fin 16, (t.voice v).state = .free)
      ∧ t.store = { s.store with
          directory := t.store.directory, armList := [], engine := none, lastReport := ⟨0, .none, 0⟩ }
      ∧ t.rx = { s.rx with syncMiss := 0, checkFail := 0, lockLoss := 0, syncSlip := false }
      ∧ t.lane = { s.lane with
          stray := 0, headerError := 0, badCheck := 0, misdirected := 0, unknownKind := 0
          broken := 0 }
      ∧ t.tx = { s.tx with timingSlip := 0, fifoOverflow := 0 }
      ∧ t.clock = s.clock ∧ t.memory = s.memory ∧ t.reserve = s.reserve ∧ t.gpi = s.gpi
      ∧ t.gpo = s.gpo ∧ s.asrun.records <+: t.asrun.records
      ∧ t.alert.mask = s.alert.mask ∧ t.alert.dest = s.alert.dest ∧ t.alert.lockCount = 0

/-- DEVICE_RESET with no cue being decoded: the routed packets stay (log entry 26) and the cue counters are
0.  An ARMED or FILLING entry becomes EMPTY; any other keeps its fields, with the holds of the break
records and voices given back.  Pending flag, changed set, LOCK count and ready ALERT are cleared and the
number kept; a source of the mask that the reset itself changes then starts a new ALERT, with the next
number and a LOCK count of 0. -/
def Sys2Proof.Machine.Claim.resetClearsStoreAndAlerts : Prop :=
  ∀ (s : State) (src : Byte) (h : CmdHeader) (rest : List Command),
    ready s src h [] rest → h.code = 0x03 →
    (∀ v : Fin 16, (s.voice v).state ≠ .free → (s.voice v).owner.isSome = true) →
    (Config.cueVisited s.cmd.draws = 0 ∨ ∀ r ∈ s.cmd.inbox.head?, r.route ≠ .cue) →
    let cleared := { s.alert with pending := false, changed := 0, lockCount := 0, ready := none }
    ∃ t, exec .deviceReset s = .next t
      ∧ t.cmd.inbox = s.cmd.inbox ∧ t.cues = ⟨0, 0, 0, 0, 0, 0, 0⟩
      ∧ (s.formed → (∀ c : Fin 4, ((s.ch c).queue.map fun r => r.number).Nodup) →
          ∀ n, t.entry n = if (s.store.armOf n).isSome then DirEntry.blank
            else { s.entry n with hold := (s.entry n).hold - references s n })
      ∧ (s.alert.mask = 0 → t.alert = cleared)
      ∧ (t.alert.pending = false → t.alert = cleared)
      ∧ (t.alert.pending = true → t.alert.number = (s.alert.number + 1) % 256
          ∧ ∃ a, t.alert.ready = some a ∧ a.number = t.alert.number ∧ a.lockCount = 0)

/-- DEVICE_RESET with an OPEN or a CLOSE at the front of the routed packets (R101).  With its decoding not
begun the cue stays for later (log entry 26).  With some channels visited it has left the lane parser, and
of the channels its mask selects those not yet visited are visited after the reset, against empty queues:
each that is enabled is counted as unmatched.  What the visited ones began is gone with the reset.  How
many were visited is a free value: log entry 46. -/
def Sys2Proof.Machine.Claim.resetFallsInsideACue : Prop :=
  ∀ (s : State) (src : Byte) (h : CmdHeader) (rest : List Command) (dest sender kind mask : Byte)
      (key offset window : Nat) (ref : AC) (more : List Routed),
    ready s src h [] rest → h.code = 0x03 → kind = 1 ∨ kind = 2 → mask.toNat ≤ 15 →
    key < 2 ^ 32 → offset ≤ 480000 → window ≤ 14400000 →
    s.cmd.inbox = ⟨.cue, dest, sender, [kind, mask] ++ toBytes key 4 ++ toBytes offset 4
      ++ toBytes window 4, ref⟩ :: more →
    let visited := Config.cueVisited s.cmd.draws
    let left := (allChannels.filter fun c => mask.getLsbD c.val).drop visited
    ∃ t, exec .deviceReset s = .next t
      ∧ t.cmd.inbox = (if visited = 0 then s.cmd.inbox else more)
      ∧ t.cues = ⟨0, 0, 0, if visited = 0 then 0 else left.countP fun c => (s.ch c).config.enable,
          0, 0, 0⟩
      ∧ ∀ c : Fin 4, (t.ch c).queue = []

/-- STATUS_READ with a clear flag of 0 answers whole sections of the status record, in order, as many
as fit the data limit, TRUNCATED when one did not, and changes nothing; with the flag set and room
for the whole record it also sets the counters, the latch and the last ingest report to their
initial values, and with any other flag it is refused (log entry 15).  A reply that holds no section is
made only with ACK (log entry 32).  (A clear with a record that was cut is left out.) -/
def Sys2Proof.Machine.Claim.statusReadReportsAndClears : Prop :=
  ∀ (s : State) (src : Byte) (h : CmdHeader) (flag : Byte) (rest : List Command),
    ready s src h [flag] rest → h.code = 0x04 →
    let u := taken s rest
    let parts := statusSections u
    (flag = 0 → ∃ n, n ≤ 8 ∧ ((parts.take n).flatten).length ≤ dataLimit h
        ∧ (n < 8 → dataLimit h < ((parts.take (n + 1)).flatten).length)
        ∧ answers .statusRead s src h (.done false (decide (n < 8)) (parts.take n).flatten) u)
      ∧ (flag = 1 → parts.flatten.length ≤ dataLimit h → ∃ t,
        answers .statusRead s src h (.done false false parts.flatten) t
          ∧ t.rx = { s.rx with syncMiss := 0, checkFail := 0, lockLoss := 0, syncSlip := false }
          ∧ t.lane = { s.lane with
              stray := 0, headerError := 0, badCheck := 0, misdirected := 0, unknownKind := 0
              broken := 0 }
          ∧ t.tx = { s.tx with timingSlip := 0, fifoOverflow := 0 }
          ∧ t.cues = ⟨0, 0, 0, 0, 0, 0, 0⟩ ∧ t.cmd = { s.cmd with queue := rest, reportDrops := 0 }
          ∧ t.store = { s.store with lastReport := ⟨0, .none, 0⟩ }
          ∧ (∀ c : Fin 4, t.ch c = { s.ch c with
              saturation := 0, cartRefusals := 0, fireRefusals := 0
              monitor := { (s.ch c).monitor with refusals := 0 } })
          ∧ t.asrun = s.asrun ∧ t.clock = s.clock ∧ t.voices = s.voices ∧ t.alert = s.alert
          ∧ t.memory = s.memory)
      ∧ (1 < flag.toNat → answers .statusRead s src h (.refused .badField) u)

/-- ALERT_SET: a mask beyond the 28 sources, or a nonzero mask with destination 0, is refused; an
accepted one replaces mask and destination and nothing else, and answers both.  With a mask of 0 no
source changes anything any more. -/
def Obligations.AlertSetReplacesTheMask : Prop :=
  ∀ (s : State) (src : Byte) (h : CmdHeader) (mask : BitVec 32) (dest : Byte) (rest : List Command),
    ready s src h (toBytes mask.toNat 4 ++ [dest]) rest → h.code = 0x05 →
    let bad := 2 ^ 28 ≤ mask.toNat ∨ mask ≠ 0 ∧ dest = 0
    (bad → answers .alertSet s src h (.refused .badField) (taken s rest))
      ∧ (¬bad → answers .alertSet s src h (.done false false (toBytes mask.toNat 4 ++ [dest]))
          ((taken s rest).setAlert { s.alert with mask := mask, dest := dest }))
      ∧ ∀ (t : State) (a : AlertSource), t.alert.mask = 0 → raiseAlert a t = t

/-- ALERT_CLEAR: with the pending flag set and an empty changed set the flag is cleared; with changes
accumulated a new ALERT is built and the flag stays; with the flag clear nothing changes.  The reply
carries whether an ALERT was built and the flag. -/
def Obligations.AlertClearAcknowledges : Prop :=
  ∀ (s : State) (src : Byte) (h : CmdHeader) (rest : List Command), ready s src h [] rest →
    h.code = 0x06 →
    let u := taken s rest
    (s.alert.pending = true → s.alert.changed = 0 →
        answers .alertClear s src h (.done false false [0, 0])
          (u.setAlert { s.alert with pending := false }))
      ∧ (s.alert.pending = true → s.alert.changed ≠ 0 → s.alert.ready = none →
        answers .alertClear s src h (.done false false [1, 1]) (u.setAlert { s.alert with
          number := (s.alert.number + 1) % 256, changed := 0, lockCount := 0
          ready := some {
            dest := s.alert.dest, src := s.lane.unitAddr, number := (s.alert.number + 1) % 256
            changed := s.alert.changed, snapshot := s.snapshot
            lockCount := min s.alert.lockCount 255, ac := s.clock.ac } }))
      ∧ (s.alert.pending = true → s.alert.changed ≠ 0 → ∀ r, s.alert.ready = some r →
        answers .alertClear s src h (.done false false [1, 1]) (u.setAlert { s.alert with
          number := (s.alert.number + 1) % 256, changed := 0, lockCount := 0
          ready := some {
            dest := s.alert.dest, src := s.lane.unitAddr, number := (s.alert.number + 1) % 256
            changed := s.alert.changed ||| r.changed, snapshot := s.snapshot
            lockCount := min (s.alert.lockCount + r.lockCount) 255, ac := s.clock.ac } }))
      ∧ (s.alert.pending = false → answers .alertClear s src h (.done false false [0, 0]) u)

/-! ### Channel and clock commands (chapter 4, section 5.2) -/

/-- The configuration a CHANNEL_SET body makes of the old one: a field whose presence bit is set takes the
value sent, put into its range, and any other keeps its value (R64 to R66). -/
def Sys2Proof.Machine.Claim.fieldsReplaced (body : List Byte) (old : ChannelConfig) : ChannelConfig :=
  let has (i : Nat) : Bool := (field body 1 4).testBit i
  let fade (j : Nat) : Nat := if j = 0 then 0 else min (max j 17) 1023
  let clip (n : Nat) : Option Nat := if n = 0xFFFF then none else some n
  { enable := if has 0 then byteAt body 5 == 1 else old.enable
    slotL := if has 1 then byteAt body 6 else old.slotL
    slotR := if has 2 then byteAt body 7 else old.slotR
    openFade := if has 3 then fade (field body 8 2) else old.openFade
    joinFade := if has 4 then fade (field body 10 2) else old.joinFade
    fillClip := if has 5 then clip (field body 12 2) else old.fillClip
    fillLevel := if has 6 then min (field body 14 2) 4095 else old.fillLevel
    fillThreshold := if has 7 then min (field body 16 4) 14400000 else old.fillThreshold
    emClip := if has 8 then clip (field body 20 2) else old.emClip
    emLevel := if has 9 then min (field body 22 2) 4095 else old.emLevel
    autoFill := if has 10 then byteAt body 24 == 1 else old.autoFill
    silThreshold := if has 11 then min (field body 25 4) 8388608 else old.silThreshold
    silLimit := if has 12 then min (max (field body 29 2) 1) 65535 else old.silLimit
    recLimit := if has 13 then min (max (field body 31 2) 1) 65535 else old.recLimit
    duckDepth := if has 14 then min (field body 33 2) 3840 else old.duckDepth
    duckRate := if has 15 then min (max (byteAt body 35) 1) 255 else old.duckRate
    lateGrace := if has 16 then min (field body 36 4) 14400000 else old.lateGrace }

/-- A number present in a CHANNEL_SET body is not the one stored: it was put into its range (R65). -/
def Sys2Proof.Machine.Claim.fieldsClamped (body : List Byte) (new : ChannelConfig) : Bool :=
  [(3, field body 8 2, new.openFade), (4, field body 10 2, new.joinFade),
    (6, field body 14 2, new.fillLevel), (7, field body 16 4, new.fillThreshold),
    (9, field body 22 2, new.emLevel), (11, field body 25 4, new.silThreshold),
    (12, field body 29 2, new.silLimit), (13, field body 31 2, new.recLimit),
    (14, field body 33 2, new.duckDepth), (15, byteAt body 35, new.duckRate),
    (16, field body 36 4, new.lateGrace)].any fun q =>
      (field body 1 4).testBit q.1 && q.2.1 != q.2.2

/-- The values present in a CHANNEL_SET body are known ones (check 2 of R65). -/
abbrev Sys2Proof.Machine.Claim.setKnown (body : List Byte) : Prop :=
  let has (i : Nat) : Prop := (field body 1 4).testBit i = true
  (has 0 → byteAt body 5 ≤ 1) ∧ (has 1 → byteAt body 6 ≤ 15) ∧ (has 2 → byteAt body 7 ≤ 15)
    ∧ (has 5 → field body 12 2 ≤ 1023 ∨ field body 12 2 = 0xFFFF)
    ∧ (has 8 → field body 20 2 ≤ 1023 ∨ field body 20 2 = 0xFFFF)
    ∧ (has 10 → byteAt body 24 ≤ 1)

/-- Checks 2 to 6 of R65 in their order: what fails each, and its flag. -/
def Sys2Proof.Machine.Claim.setChecks (s : State) (c : Fin 4) (body : List Byte) :
    List (Bool × ErrFlag) :=
  let x := s.ch c
  let new := fieldsReplaced body x.config
  let meets (i : Nat) : Bool := i == new.slotL || i == new.slotR
  [(!decide (setKnown body), .badField),
    (x.state != .halted && x.state != .network, .state),
    (new.slotL == new.slotR, .badField),
    (new.enable && allChannels.any (fun d => d != c && (s.ch d).config.enable
      && (meets (s.ch d).config.slotL || meets (s.ch d).config.slotR)), .badField),
    (x.config.enable && !new.enable
      && allVoices.any (fun v => (s.voice v).owner.any fun o => o.channel == c), .state)]

/-- CHANNEL_SET (R65, R66): a channel above 3 is refused; with no field present the command answers the
configuration and changes nothing.  With a field present the checks are made in their order, the first
that fails refusing the command with its flag and no change; when none fails the fields present take the
values sent, put into their ranges, absent ones stay, and the configuration is answered.  A channel that
stays enabled or disabled changes in nothing else; one that is turned on enters NETWORK at unity gain;
one that is turned off is HALTED with its silence counts at 0 and an active SILENCE level ended and
reported.  (The reply cut at a small data limit is log entry 12; presence bits above bit 16 are ignored by
log entry 13.) -/
def Sys2Proof.Machine.Claim.channelSetReplacesTheFields : Prop :=
  ∀ (s : State) (src : Byte) (h : CmdHeader) (body : List Byte) (rest : List Command),
    ready s src h body rest → h.code = 0x10 → body.length = 40 →
    let u := taken s rest
    (3 < byteAt body 0 → answers .channelSet s src h (.refused .badField) u)
      ∧ ∀ c : Fin 4, byteAt body 0 = c.val →
        let x := s.ch c
        let new := fieldsReplaced body x.config
        let given := field body 1 4 % 2 ^ 17 ≠ 0
        let failing := (setChecks s c body).find? fun q => q.1
        let done (y : Channel) (f : State → State) : Prop := answers .channelSet s src h
          (.done (fieldsClamped body new) false (toBytes c.val 1 ++ configBytes new)) (f (u.setCh c y))
        (¬given → answers .channelSet s src h
            (.done false false (toBytes c.val 1 ++ configBytes x.config)) u)
          ∧ (∀ q, given → failing = some q → answers .channelSet s src h (.refused q.2) u)
          ∧ (given → failing = none → x.config.enable = new.enable →
              done { x with config := new } id)
          ∧ (given → failing = none → x.config.enable = false → new.enable = true →
              done { x with config := new, state := .network, gain := 3840, gainTarget := 3840 } id)
          ∧ (given → failing = none → x.config.enable = true → new.enable = false →
              done { x with
                  config := new, state := .halted
                  monitor := { x.monitor with
                    silentCount := 0, silence := false, limitReached := false, recoveryCount := 0
                    peaks := none } }
                (if x.monitor.silence then raiseAlert (.silence c) else id))

/-- CHANNEL_RESET of a channel that has no break in flight, no cart and no emergency fill: its queue
is emptied, it is in NETWORK when enabled and HALTED
otherwise with gain at unity, duck 0 and the silence counts 0, its configuration and refusal counts
stay, its voices are FREE, nothing is recorded, and no other channel changes. -/
def Sys2Proof.Machine.Claim.channelResetRestsTheChannel : Prop :=
  ∀ (s : State) (src : Byte) (h : CmdHeader) (c : Fin 4) (rest : List Command),
    ready s src h [BitVec.ofNat 8 c.val] rest → h.code = 0x11 →
    s.flight c = none → (s.ch c).carts = [] → (s.ch c).monitor.emRecord = none →
    ∃ t, answers .channelReset s src h (.done false false []) t
      ∧ t.ch c = { s.ch c with
          state := if (s.ch c).config.enable then .network else .halted
          origin := none, returning := false, breakClear := false, emClear := false
          gain := 3840, gainTarget := 3840, gainRate := 1, duck := 0, carts := [], queue := []
          monitor := { Monitor.powerOn with refusals := (s.ch c).monitor.refusals } }
      ∧ (∀ d, d ≠ c → t.ch d = s.ch d)
      ∧ (∀ v : Fin 16, (s.voice v).owner.any (fun o => o.channel == c) = true →
          (t.voice v).state = .free)
      ∧ (∀ v : Fin 16, (s.voice v).owner.any (fun o => o.channel == c) = false →
          t.voice v = s.voice v)
      ∧ t.asrun = s.asrun ∧ t.clock = s.clock ∧ t.memory = s.memory ∧ t.tx = s.tx ∧ t.rx = s.rx
      ∧ t.lane = s.lane ∧ t.gpi = s.gpi ∧ t.gpo = s.gpo ∧ t.cmd = { s.cmd with queue := rest }

/-- The start AC of a voice's airing: one already taken, that of a STARTED still pending, or that of the
PLAYING voice (R150, R161). -/
def Sys2Proof.Machine.Claim.begunAt (s : State) (v : Fin 16) (taken : Option AC) : Option AC :=
  (taken.or ((s.events.find? fun e => e.voice == v && e.kind == .started).map fun e =>
    e.ac + e.shift)).or (if (s.voice v).state = .playing then (s.voice v).startAC else none)

/-- The end AC of a voice's airing that a reset cuts: that of a finishing event still pending, or the first
frame without its output (R83). -/
def Sys2Proof.Machine.Claim.silentAt (s : State) (v : Fin 16) : AC :=
  match s.events.find? fun e => e.voice == v && e.kind != .started with
  | some e => e.ac + e.shift
  | none => if s.forming.outputs.any fun o => o.voice == v then s.nextAC + 1 else s.nextAC

/-- The airing of a part that a reset cuts, when it had started (R150). -/
def Sys2Proof.Machine.Claim.cutAiring (s : State) (p : Part) : Option Aired :=
  let start := match p.state with
    | .sounding | .finished => p.startAC
    | .primed => begunAt s p.voice none
    | .waiting | .notStarted => none
  let stop := p.endAC.getD (silentAt s p.voice)
  start.map fun a => ⟨a, stop, (stop - a).toNat⟩

/-- The record of a cart or an emergency fill that a reset ends: CUT when its voice had started, NOT_AIRED
when it had not (R83, R161). -/
def Sys2Proof.Machine.Claim.endedRecord (s : State) (c : Fin 4) (kind : AsRunKind) (v : Fin 16)
    (clip : Nat) (key : BitVec 32) (taken : Option AC) : AsRunRecord :=
  let begun := begunAt s v taken
  { channel := c, kind := kind, breakNo := none, itemNo := none, clip := clip, spotKey := key
    outcome := if begun.isSome then .cut else .notAired, cause := .reset, late := false
    planned := none, aired := begun.map fun a => ⟨a, silentAt s v, (silentAt s v - a).toNat⟩
    squeeze := none }

/-- The records of the break in flight that a reset ends (R83, R150): one per item, CUT when it had started
and DROPPED when it had not, and one of the fill when it had started. -/
def Sys2Proof.Machine.Claim.breakResetRecords (s : State) (c : Fin 4) (r : BreakRecord) (plan : Plan) :
    List AsRunRecord :=
  itemRecords s c r plan (fun i =>
      match (r.parts.find? fun x => PartKind.isItem i.number x.kind).bind (cutAiring s) with
      | some a => (.cut, .reset, some a)
      | none => (.dropped, .reset, none))
    ++ ((r.parts.find? fun x => PartKind.isFill x.kind).bind (cutAiring s)).toList.map fun a =>
        fillRecord s c r plan (.cut, .reset, some a)

/-- What a reset of channel c records, in its order (R83): the break in flight, the carts in ascending
voice number, the emergency fill. -/
def Sys2Proof.Machine.Claim.resetRecords (s : State) (c : Fin 4) : List AsRunRecord :=
  (match s.flight c with
    | some r => r.plan.toList.flatMap fun plan => breakResetRecords s c r plan
    | none => [])
  ++ (allVoices.filterMap fun v => ((s.ch c).carts.find? fun k => k.voice == v).map fun k =>
        endedRecord s c .cart v k.clip k.spotKey k.startAC)
  ++ ((s.ch c).monitor.emRecord.toList.map fun k =>
        endedRecord s c .emergency k.voice k.clip k.spotKey k.startAC)

/-- The holds that the break records of channel c, and its voices in use, have on a clip. -/
def Sys2Proof.Machine.Claim.channelReferences (s : State) (c : Fin 4) (n : Nat) : Nat :=
  ((s.ch c).queue.map fun r => r.clips.count n).sum
    + (allVoices.filter fun v => (s.voice v).state != .free
        && (s.voice v).owner.any (fun o => o.channel == c) && (s.voice v).clip == some n).length

/-- CHANNEL_RESET of a channel with work (R83, R84, R150, R161): what it was airing or had triggered is
recorded with cause RESET, the break in flight first, then the carts and the emergency fill; the channel
is at rest, its voices are FREE, and the holds of its records and voices are given back. -/
def Sys2Proof.Machine.Claim.channelResetRecordsTheWork : Prop :=
  ∀ (s : State) (src : Byte) (h : CmdHeader) (c : Fin 4) (rest : List Command),
    ready s src h [BitVec.ofNat 8 c.val] rest → h.code = 0x11 → s.formed →
    ((s.ch c).queue.map fun r => r.number).Nodup →
    s.asrun.records.length + (resetRecords s c).length ≤ 256 →
    ∃ t, answers .channelReset s src h (.done false false []) t
      ∧ t.asrun = ⟨s.asrun.records ++ resetRecords s c, s.asrun.lost⟩
      ∧ t.ch c = { s.ch c with
          state := if (s.ch c).config.enable then .network else .halted
          origin := none, returning := false, breakClear := false, emClear := false
          gain := 3840, gainTarget := 3840, gainRate := 1, duck := 0, carts := [], queue := []
          monitor := { Monitor.powerOn with refusals := (s.ch c).monitor.refusals } }
      ∧ (∀ d, d ≠ c → t.ch d = s.ch d)
      ∧ (∀ v : Fin 16, (s.voice v).owner.any (fun o => o.channel == c) = true →
          (t.voice v).state = .free)
      ∧ (∀ v : Fin 16, (s.voice v).owner.any (fun o => o.channel == c) = false →
          t.voice v = s.voice v)
      ∧ (∀ n, t.entry n = { s.entry n with hold := (s.entry n).hold - channelReferences s c n })
      ∧ t.clock = s.clock ∧ t.memory = s.memory ∧ t.tx = s.tx ∧ t.rx = s.rx ∧ t.lane = s.lane
      ∧ t.gpi = s.gpi ∧ t.gpo = s.gpo ∧ t.cmd = { s.cmd with queue := rest }

/-- DEVICE_RESET records what a channel was airing as CHANNEL_RESET does (R86, R188). (Stated for a part
in which no other channel has work, and with no cue being decoded.) -/
def Sys2Proof.Machine.Claim.deviceResetRecordsTheWork : Prop :=
  ∀ (s : State) (src : Byte) (h : CmdHeader) (c : Fin 4) (rest : List Command),
    ready s src h [] rest → h.code = 0x03 → s.formed →
    (Config.cueVisited s.cmd.draws = 0 ∨ ∀ r ∈ s.cmd.inbox.head?, r.route ≠ .cue) →
    (∀ v : Fin 16, (s.voice v).state ≠ .free →
      (s.voice v).owner.any (fun o => o.channel == c) = true) →
    (∀ d, d ≠ c → s.flight d = none ∧ (s.ch d).carts = [] ∧ (s.ch d).monitor.emRecord = none) →
    s.asrun.records.length + (resetRecords s c).length ≤ 256 →
    ∃ t, exec .deviceReset s = .next t
      ∧ t.asrun = ⟨s.asrun.records ++ resetRecords s c, s.asrun.lost⟩

/-- CLOCK_SET adds its signed amount d to the air clock and to every moment that keeps its place in time:
the AC of a valid time mark, start frames of PRIMED voices, the start, reference and stop moments of a
FILLING ingest, the start ACs of carts and emergency fills, the carrying ACs of the transit and the
assembly deadline; a pending voice event keeps its AC and carries d to its owner.  Break records with
their expiries and targets, and the start ACs of voices, stay.  While a channel is on air it is refused.
(The ACs of captured frames and of the last frame delivered, the first frame of the running peaks, and
the reference frames of routed packets move by log entry 24.  Where a row has begun the next frame
already, what it decided stays and the frame carries the shifted AC: the model's choice, log entry 43.) -/
def Obligations.ClockSetMovesTheMoments : Prop :=
  ∀ (s : State) (src : Byte) (h : CmdHeader) (d : BitVec 32) (rest : List Command),
    ready s src h (toBytes d.toNat 4) rest → h.code = 0x12 →
    ((∃ c : Fin 4, (s.ch c).state.onAir = true) →
        answers .clockSet s src h (.refused .state) (taken s rest))
      ∧ ((∀ c : Fin 4, (s.ch c).state.onAir = false) → ∃ t,
        answers .clockSet s src h (.done false false
            (toBytes s.clock.ac.toNat 4 ++ toBytes (s.clock.ac + d).toNat 4)) t
          ∧ t.clock = { s.clock with
              ac := s.clock.ac + d
              mark := if s.clock.mark.valid then { s.clock.mark with ac := s.clock.mark.ac + d }
                else s.clock.mark }
          ∧ (∀ v : Fin 16, t.voice v = if (s.voice v).state = .primed then
              { s.voice v with startFrame := (s.voice v).startFrame.map (· + d) }
              else s.voice v)
          ∧ (∀ c : Fin 4, t.ch c = { s.ch c with
              carts := (s.ch c).carts.map fun q => { q with startAC := q.startAC.map (· + d) }
              monitor := { (s.ch c).monitor with
                emRecord := (s.ch c).monitor.emRecord.map fun r =>
                  { r with startAC := r.startAC.map (· + d) }
                peaks := (s.ch c).monitor.peaks.map fun p => { p with first := p.first + d } } })
          ∧ t.tx = { s.tx with
              transit := s.tx.transit.map fun f => { f with carrying := f.carrying + d }
              lastCarrying := s.tx.lastCarrying.map (· + d) }
          ∧ t.store = { s.store with engine := s.store.engine.map fun g => { g with
              start := g.start.map fun p => (p.1 + d, p.2 + d)
              stop := g.stop.map (· + d)
              captured := g.captured.map fun f => { f with carrying := f.carrying + d } } }
          ∧ t.cmd = { s.cmd with
              queue := rest
              assembly := s.cmd.assembly.map fun a => { a with deadline := a.deadline + d }
              inbox := s.cmd.inbox.map fun r => { r with ref := r.ref + d } }
          ∧ t.events = s.events.map (fun e => { e with shift := e.shift + d })
          ∧ t.rx = s.rx ∧ t.lane = s.lane ∧ t.cues = s.cues ∧ t.memory = s.memory
          ∧ t.asrun = s.asrun ∧ t.alert = s.alert ∧ t.gpi = s.gpi ∧ t.gpo = s.gpo
          ∧ t.reserve = s.reserve ∧ t.forming = s.forming ∧ t.pending = s.pending)

/-- CART_FIRE in range on a channel that is not HALTED, with a FREE voice and a READY clip: the lowest
FREE voice is PRIMED with the clip at its base step and target code from the next block boundary, a
hold and a cart record are taken, and voice and start frame are answered; a clip above 1,023 or a
channel above 3 is refused, a HALTED channel, no FREE voice or a clip that is not READY is refused,
counted and reported. -/
def Obligations.CartFirePrimesAVoice : Prop :=
  ∀ (s : State) (src : Byte) (h : CmdHeader) (channel : Byte) (clip level : Nat)
    (rest : List Command), clip < 65536 → level < 65536 → s.formed →
    ready s src h ([channel] ++ toBytes clip 2 ++ toBytes level 2) rest → h.code = 0x36 →
    let u := taken s rest
    (3 < channel.toNat ∨ 1023 < clip → answers .cartFire s src h (.refused .badField) u)
      ∧ ∀ c : Fin 4, channel.toNat = c.val → clip ≤ 1023 →
        let counted := raiseAlert .cartRefused (u.setCh c { s.ch c with
          cartRefusals := min ((s.ch c).cartRefusals + 1) 65535 })
        ((s.ch c).state = .halted → answers .cartFire s src h (.refused .state) counted)
          ∧ ((s.ch c).state ≠ .halted → s.freeVoices = [] →
              answers .cartFire s src h (.refused .noVoice) counted)
          ∧ ((s.ch c).state ≠ .halted → s.freeVoices ≠ [] → (s.entry clip).state ≠ .ready →
              answers .cartFire s src h (.refused .notFound) counted)
          ∧ (∀ v free, (s.ch c).state ≠ .halted → s.freeVoices = v :: free →
              s.eventPending v = false → (s.entry clip).state = .ready →
              let e := s.entry clip
              let code := targetCode (min level 4095) e.trim
              let start := s.clock.ac + BitVec.ofNat 32 (32 - s.clock.ac.toNat % 32)
              answers .cartFire s src h
                (.done (decide (4095 < level)) false (toBytes v.val 1 ++ toBytes start.toNat 4))
                (((u.setEntry clip { e with hold := e.hold + 1 }).setCh c { s.ch c with
                  carts := (s.ch c).carts ++ [⟨v, clip, e.spotKey, code, none⟩] }).setVoice v {
                    Voice.freed with
                    state := .primed, owner := some ⟨c, .cart⟩, clip := some clip
                    step := baseStep e.rate, startFrame := some start, code := code
                    ramp := some ⟨code, 1, 0, false⟩ }))

/-! ### Clip store commands (chapter 2) -/

/-- DIR_READ answers the entries from the first on, whole entries of 48 bytes, as many as asked, as
exist and as fit the data limit, TRUNCATED when they did not all fit, and changes nothing; a first
entry above 1,023 or a count of 0 is refused.  (That a count cut at 1,023 does not by itself set TRUNCATED
is log entry 57.) -/
def Sys2Proof.Machine.Claim.dirReadAnswersEntries : Prop :=
  ∀ (s : State) (src : Byte) (h : CmdHeader) (first count : Nat) (rest : List Command),
    first < 65536 → count < 65536 →
    ready s src h (toBytes first 2 ++ toBytes count 2) rest → h.code = 0x20 →
    let u := taken s rest
    let asked := min count (1024 - first)
    let n := min asked ((dataLimit h - 4) / 48)
    (1023 < first ∨ count = 0 → answers .dirRead s src h (.refused .badField) u)
      ∧ (first ≤ 1023 → 0 < count →
        answers .dirRead s src h (.done false (decide (n < asked))
          (toBytes first 2 ++ toBytes n 2
            ++ (List.range' first n).flatMap fun i => entryBytes i (s.entry i))) u)

/-- DIR_WRITE on a READY entry without a hold replaces the trim, clamped into −1024..+255, the loop
points, the spot key and the label that are present, and nothing else; an EMPTY entry, an ARMED or
FILLING one, a held one and loop points out of range are refused.  (Presence bits above bit 3 are
ignored: log entry 13; the entry is judged before the loop points: log entry 37.) -/
def Sys2Proof.Machine.Claim.dirWriteEditsTheEntry : Prop :=
  ∀ (s : State) (src : Byte) (h : CmdHeader) (body : List Byte) (n : Nat) (rest : List Command),
    ready s src h body rest → h.code = 0x21 → body.length = 34 → field body 0 2 = n → n ≤ 1023 →
    let u := taken s rest
    let e := s.entry n
    let has (i : Nat) := (byteAt body 2).testBit i
    let trim := signedField body 3 2
    let a := field body 6 4
    let z := field body 10 4
    let loopGiven := has 1 && decide (byteAt body 5 = 1)
    (e.state = .empty → answers .dirWrite s src h (.refused .notFound) u)
      ∧ (e.state = .armed ∨ e.state = .filling → answers .dirWrite s src h (.refused .state) u)
      ∧ (e.state = .ready → 0 < e.hold → answers .dirWrite s src h (.refused .held) u)
      ∧ (e.state = .ready → e.hold = 0 → (has 1 = true → byteAt body 5 ≤ 1) →
          (loopGiven = true → a + 32 ≤ z ∧ z ≤ e.length) →
          answers .dirWrite s src h
            (.done (has 0 && (decide (trim < -1024) || decide (255 < trim))) false [])
            (u.setEntry n { e with
              trim := if has 0 then max (-1024) (min 255 trim) else e.trim
              loop := if has 1 then (if byteAt body 5 = 1 then some (a, z) else none) else e.loop
              spotKey := if has 2 then BitVec.ofNat 32 (field body 14 4) else e.spotKey
              label := if has 3 then Vector.ofFn fun i : Fin 16 => body.getD (18 + i.val) 0
                else e.label }))
      ∧ (e.state = .ready → e.hold = 0 → loopGiven = true → ¬(a + 32 ≤ z ∧ z ≤ e.length) →
          answers .dirWrite s src h (.refused .badField) u)

/-- DIR_ERASE empties a READY library clip without a hold, and the oldest clip of the ring; another
ring clip is refused with STATE; the refusals of DIR_WRITE hold here too (a held one answers HELD
first: log entry 36). -/
def Sys2Proof.Machine.Claim.dirEraseEmptiesTheEntry : Prop :=
  ∀ (s : State) (src : Byte) (h : CmdHeader) (n : Nat) (rest : List Command), n ≤ 1023 →
    ready s src h (toBytes n 2) rest → h.code = 0x22 →
    let u := taken s rest
    let e := s.entry n
    (e.state = .empty → answers .dirErase s src h (.refused .notFound) u)
      ∧ (e.state = .armed ∨ e.state = .filling → answers .dirErase s src h (.refused .state) u)
      ∧ (e.state = .ready → 0 < e.hold → answers .dirErase s src h (.refused .held) u)
      ∧ (e.state = .ready → e.hold = 0 → e.region = .library →
          answers .dirErase s src h (.done false false []) (u.setEntry n .blank))
      ∧ (∀ next more, e.state = .ready → e.hold = 0 → e.region = .ring →
          s.store.ringList = n :: next :: more →
          answers .dirErase s src h (.done false false [])
            ((u.setStore { s.store with
              ringList := next :: more, boundaryPage := (s.entry next).firstPage }).setEntry n
                .blank))
      ∧ (e.state = .ready → e.hold = 0 → e.region = .ring → s.store.ringList = [n] →
          answers .dirErase s src h (.done false false [])
            ((u.setStore { s.store with
              ringList := [], boundaryPage := s.store.currentPage }).setEntry n .blank))
      ∧ (e.state = .ready → e.hold = 0 → e.region = .ring → s.store.ringList.head? ≠ some n →
          answers .dirErase s src h (.refused .state) u)

/-- The values of an INGEST_ARM body are known ones (check 3 of R24). -/
abbrev Sys2Proof.Machine.Claim.armKnown (b : List Byte) : Prop :=
  byteAt b 2 ≤ 1 ∧ byteAt b 7 ≤ 1 ∧ (field b 8 2 = 32000 ∨ field b 8 2 = 44100 ∨ field b 8 2 = 48000)
    ∧ byteAt b 18 ≤ 1 ∧ byteAt b 5 ≤ 15 ∧ 1 ≤ byteAt b 6 ∧ byteAt b 6 ≤ 8
    ∧ byteAt b 5 + byteAt b 6 ≤ 16 ∧ (byteAt b 7 = 1 → byteAt b 6 % 2 = 0) ∧ field b 14 4 ≤ 2 ^ 28

/-- The entry an INGEST_ARM body describes (R25), in a state, from a first page. -/
def Sys2Proof.Machine.Claim.armedEntry (b : List Byte) (state : EntryState) (page : Nat) : DirEntry :=
  { DirEntry.blank with
    state := state
    region := if byteAt b 2 = 1 then .ring else .library
    firstPage := page
    layout := if byteAt b 7 = 1 then .stereo else .mono
    rate := if field b 8 2 = 32000 then .r32000 else if field b 8 2 = 44100 then .r44100 else .r48000
    spotKey := BitVec.ofNat 32 (field b 10 4) }

/-- The pages n words take. -/
def Sys2Proof.Machine.Claim.pagesFor (n : Nat) : Nat := (n + 65535) / 65536

/-- The page after the last of a library arm with a first page and a length limit (section 2.4). -/
def Sys2Proof.Machine.Claim.armEnd (s : State) (page limit : Nat) : Nat :=
  if limit = 0 then s.store.lp else min (page + pagesFor limit) s.store.lp

/-- A READY library clip with a page from one page up to, and without, another. -/
def Sys2Proof.Machine.Claim.clipOnPages (first last : Nat) (e : DirEntry) : Bool :=
  e.state == .ready && e.region == .library && decide (e.firstPage < last)
    && decide (first < e.firstPage + pagesFor (if e.layout = .mono then e.length else 2 * e.length))

/-- Checks 4 to 11 of R24 in their order: what fails each, and its flag. -/
def Sys2Proof.Machine.Claim.armChecks (s : State) (b : List Byte) : List (Bool × ErrFlag) :=
  let ring := byteAt b 2 == 1
  let now := byteAt b 18 == 0
  let first := field b 3 2
  let last := armEnd s first (field b 14 4)
  let rp := 4096 - s.store.lp
  [(!ring && decide (s.store.lp ≤ first), .badField),
    (ring && rp == 0, .noRoom),
    (now && s.store.engine.isSome, .busy),
    (now && s.rx.lock != .locked, .link),
    (now && ring && !s.store.ringList.isEmpty
      && (s.store.boundaryPage + rp - s.store.currentPage) % rp == 0, .noRoom),
    (!now && decide (8 ≤ s.store.armList.length), .noRoom),
    (!ring && s.store.directory.any (fun p => p.2.region == .library
      && (p.2.state == .armed || p.2.state == .filling)
      && (s.store.armOf p.1).any fun a => decide (p.2.firstPage < last)
        && decide (first < armEnd s p.2.firstPage a.limit)), .state),
    (!ring && s.store.directory.any (fun p => clipOnPages first last p.2 && decide (0 < p.2.hold)),
      .held)]

/-- INGEST_ARM (R24, R25, R26): the checks in their order, the first that fails refusing the command with
its flag and no change; an accepted library arm first makes the READY clips on its pages EMPTY; with the
CUE start the entry is ARMED, a ring arm with first page 0, and joins the arm list; with NOW it is
FILLING, a ring arm from the current page, and the engine is busy with it. -/
def Obligations.IngestArmFillsTheEntry : Prop :=
  ∀ (s : State) (src : Byte) (h : CmdHeader) (b : List Byte) (rest : List Command),
    ready s src h b rest → h.code = 0x23 → b.length = 19 →
    let u := taken s rest
    let n := field b 0 2
    let arm : Arm := ⟨n, byteAt b 5, byteAt b 6, field b 14 4⟩
    let ring := byteAt b 2 = 1
    let first := field b 3 2
    let last := armEnd s first (field b 14 4)
    (1023 < n → answers .ingestArm s src h (.refused .badField) u)
      ∧ (n ≤ 1023 → (s.entry n).state ≠ .empty → answers .ingestArm s src h (.refused .state) u)
      ∧ (n ≤ 1023 → (s.entry n).state = .empty → ¬armKnown b →
          answers .ingestArm s src h (.refused .badField) u)
      ∧ (∀ x, n ≤ 1023 → (s.entry n).state = .empty → armKnown b →
          (armChecks s b).find? (fun q => q.1) = some x →
          answers .ingestArm s src h (.refused x.2) u)
      ∧ (n ≤ 1023 → (s.entry n).state = .empty → armKnown b → s.formed →
          (armChecks s b).find? (fun q => q.1) = none →
          ∃ t, answers .ingestArm s src h (.done false false []) t
            ∧ (∀ m, m ≠ n → t.entry m =
                if ¬ring ∧ clipOnPages first last (s.entry m) = true then DirEntry.blank
                else s.entry m)
            ∧ (byteAt b 18 = 1 → t.entry n = armedEntry b .armed (if ring then 0 else first)
              ∧ t = u.setStore { s.store with
                  directory := t.store.directory, armList := s.store.armList ++ [arm] })
            ∧ (byteAt b 18 = 0 →
              t.entry n = armedEntry b .filling (if ring then s.store.currentPage else first)
              ∧ t = u.setStore { s.store with
                  directory := t.store.directory
                  armList := s.store.armList.filter fun a => a.clip != n
                  engine := some {
                    arm := arm, words := 0, failed := 0, start := none, stop := none
                    captured := [], ending := none } }))

/-- INGEST_STOP ends a FILLING mono library clip with the words it has and answers the outcome and the
length, disarms an ARMED one, and is refused for an EMPTY or READY entry.  RING_RETIRE of 0 clips
retires none; of one or more it retires an unheld oldest clip, and stops at a held one. -/
def Sys2Proof.Machine.Claim.ingestStopEndsOrDisarms : Prop :=
  (∀ (s : State) (src : Byte) (h : CmdHeader) (n : Nat) (rest : List Command), n ≤ 1023 →
    ready s src h (toBytes n 2) rest → h.code = 0x24 →
    let u := taken s rest
    ((s.entry n).state = .empty → answers .ingestStop s src h (.refused .notFound) u)
      ∧ ((s.entry n).state = .ready → answers .ingestStop s src h (.refused .state) u)
      ∧ ((s.entry n).state = .armed → answers .ingestStop s src h (.done false false [])
          ((u.setStore { s.store with
            armList := s.store.armList.filter fun a => a.clip != n }).setEntry n .blank))
      ∧ (∀ g, (s.entry n).state = .filling → s.store.engine = some g → g.arm.clip = n →
          0 < g.words → (s.entry n).layout = .mono → (s.entry n).region = .library →
          answers .ingestStop s src h (.done false false ([3] ++ toBytes g.words 4))
            (raiseAlert .ingest (let t := u.setEntry n { s.entry n with
              state := .ready, length := g.words, damage := min g.failed 65535 }
            t.setStore { t.store with
              engine := none, lastReport := ⟨n, .commandStop, g.words⟩ }))))
  ∧ ∀ (s : State) (src : Byte) (h : CmdHeader) (k : Nat) (rest : List Command), k < 65536 →
    ready s src h (toBytes k 2) rest → h.code = 0x25 →
    let u := taken s rest
    (k = 0 ∨ s.store.ringList = [] →
        answers .ringRetire s src h (.done (decide (1024 < k)) false [0, 0]) u)
      ∧ (∀ n more, s.store.ringList = n :: more → 0 < (s.entry n).hold →
          answers .ringRetire s src h (.done (decide (1024 < k)) false [0, 0]) u)
      ∧ (∀ n, s.store.ringList = [n] → (s.entry n).hold = 0 → 0 < k →
          answers .ringRetire s src h (.done (decide (1024 < k)) false [0, 1])
            ((u.setStore { s.store with
              ringList := [], boundaryPage := s.store.currentPage }).setEntry n .blank))

/-- INGEST_STOP of any FILLING clip (R32, R21): the clip keeps one clip frame per word of a mono ingest and
per two of a stereo one, with its failed frames as damage; with none kept the entry becomes EMPTY and
the outcome is EMPTY_CLIP.  A ring clip joins the end of the ring list, the current page moves past its
last page in ring order, and the first clip of an empty list sets the boundary page. -/
def Sys2Proof.Machine.Claim.ingestStopKeepsTheClip : Prop :=
  ∀ (s : State) (src : Byte) (h : CmdHeader) (n : Nat) (rest : List Command) (g : Ingest), n ≤ 1023 →
    ready s src h (toBytes n 2) rest → h.code = 0x24 → (s.entry n).state = .filling →
    s.store.engine = some g → g.arm.clip = n →
    let u := taken s rest
    let e := s.entry n
    let kept := if e.layout = .mono then g.words else g.words / 2
    let keptWords := if e.layout = .mono then kept else 2 * kept
    let ended (outcome : IngestOutcome) (v : State) : State :=
      raiseAlert .ingest (v.setStore { v.store with
        engine := none, lastReport := ⟨n, outcome, kept⟩ })
    (kept = 0 → answers .ingestStop s src h (.done false false [5, 0, 0, 0, 0])
        (ended .emptyClip (u.setEntry n .blank)))
      ∧ (0 < kept →
        let v := u.setEntry n { e with state := .ready, length := kept, damage := min g.failed 65535 }
        (e.region = .library → answers .ingestStop s src h (.done false false ([3] ++ toBytes kept 4))
            (ended .commandStop v))
          ∧ (e.region = .ring → answers .ingestStop s src h (.done false false ([3] ++ toBytes kept 4))
            (ended .commandStop (v.setStore { v.store with
              ringList := s.store.ringList ++ [n]
              currentPage := s.store.lp
                + (e.firstPage - s.store.lp + (keptWords + 65535) / 65536) % (4096 - s.store.lp)
              boundaryPage := if s.store.ringList = [] then e.firstPage
                else s.store.boundaryPage }))))

/-- RING_RETIRE of several clips (R34): the oldest clips of the ring are retired one after another, as many
as asked (1,024 at most) and no further than the first held one; each becomes EMPTY and leaves the list,
and the boundary page is the first page of the oldest left, or the current page when none is left. -/
def Sys2Proof.Machine.Claim.ringRetireTakesTheOldest : Prop :=
  ∀ (s : State) (src : Byte) (h : CmdHeader) (k : Nat) (rest : List Command), k < 65536 → s.formed →
    s.store.ringList.Nodup → ready s src h (toBytes k 2) rest → h.code = 0x25 →
    let gone := (s.store.ringList.take (min k 1024)).takeWhile fun n => (s.entry n).hold == 0
    let left := s.store.ringList.drop gone.length
    ∃ t, answers .ringRetire s src h (.done (decide (1024 < k)) false (toBytes gone.length 2)) t
      ∧ (∀ n, t.entry n = if n ∈ gone then DirEntry.blank else s.entry n)
      ∧ t.store = { s.store with
          directory := t.store.directory, ringList := left
          boundaryPage := if gone = [] then s.store.boundaryPage
            else match left with
              | [] => s.store.currentPage
              | m :: _ => (s.entry m).firstPage }
      ∧ t.memory = s.memory ∧ t.chans = s.chans ∧ t.voices = s.voices ∧ t.asrun = s.asrun
      ∧ t.clock = s.clock ∧ t.alert = s.alert

/-! ### Break commands (chapters 6 and 8) -/

/-- The 16 bytes of item number k, from 0, of a load part whose items begin at an offset. -/
def Sys2Proof.Machine.Claim.itemAt (body : List Byte) (off k : Nat) : List Byte :=
  (body.drop (off + 16 * k)).take 16

/-- An item field of a load part may be loaded (R107): clip 0..1,023, known class, flags and intervals. -/
abbrev Sys2Proof.Machine.Claim.itemAllowed (b : List Byte) : Prop :=
  field b 0 2 ≤ 1023 ∧ byteAt b 2 ≤ 1 ∧ byteAt b 3 ≤ 1 ∧ byteAt b 10 ≤ 1 ∧ byteAt b 13 ≤ 1
    ∧ (byteAt b 10 = 1 → byteAt b 12 ≤ 3) ∧ (byteAt b 13 = 1 → byteAt b 15 ≤ 3)

/-- The item record that 16 bytes describe (R107, R199), its numbers put into their ranges. -/
def Sys2Proof.Machine.Claim.itemOf (b : List Byte) : Item where
  clip := field b 0 2
  cls := if byteAt b 2 = 1 then .drop else .must
  stretch := byteAt b 3 == 1
  level := min (field b 4 2) 4095
  overlap := min (field b 6 4) 480000
  fadeIn := if byteAt b 10 = 1 then some ⟨max (byteAt b 11) 1, byteAt b 12⟩ else none
  fadeOut := if byteAt b 13 = 1 then some ⟨max (byteAt b 14) 1, byteAt b 15⟩ else none

/-- A number of these 16 bytes lies outside its range. -/
def Sys2Proof.Machine.Claim.itemClamped (b : List Byte) : Bool :=
  decide (4095 < field b 4 2) || decide (480000 < field b 6 4)
    || byteAt b 10 == 1 && byteAt b 11 == 0 || byteAt b 13 == 1 && byteAt b 14 == 0

/-- The items of a part. -/
def Sys2Proof.Machine.Claim.itemsOf (body : List Byte) (off count : Nat) : List Item :=
  (List.range count).map fun k => itemOf (itemAt body off k)

/-- A first part passes checks 1 to 5 of R106 (R199: its fields at their offsets). -/
abbrev Sys2Proof.Machine.Claim.firstPartAllowed (body : List Byte) (now : AC) : Prop :=
  byteAt body 0 ≤ 3 ∧ 1 ≤ field body 1 2 ∧ byteAt body 4 ≤ 1 ∧ byteAt body 5 ≤ 2
    ∧ (byteAt body 5 = 0 → 1 ≤ field body 6 4 ∧ field body 6 4 ≤ 65535)
    ∧ field body 10 4 ≤ 14400000 ∧ byteAt body 16 ≤ 1
    ∧ (byteAt body 16 = 1 → field body 17 2 ≤ 1023) ∧ byteAt body 19 ≤ 1
    ∧ (byteAt body 19 = 1 → acBefore now (BitVec.ofNat 32 (field body 20 4)) = true)
    ∧ byteAt body 24 ≤ 24 ∧ (byteAt body 4 = 1 ∨ 1 ≤ byteAt body 24)
    ∧ ∀ k, k < byteAt body 24 → itemAllowed (itemAt body 25 k)

/-- The break record a first part describes (R106 to R108, R199). -/
def Sys2Proof.Machine.Claim.recordOf (body : List Byte) : BreakRecord where
  number := field body 1 2
  trigger := if byteAt body 5 = 0 then .cue (field body 6 4)
    else if byteAt body 5 = 1 then .time (BitVec.ofNat 32 (field body 6 4)) else .manual
  window := field body 10 4
  netLevel := min (field body 14 2) 4095
  fillClip := if byteAt body 16 = 1 then some (field body 17 2) else none
  expiry := if byteAt body 19 = 1 then some (BitVec.ofNat 32 (field body 20 4)) else none
  items := itemsOf body 25 (byteAt body 24)
  state := if byteAt body 4 = 1 then .loading else .pending
  start := none
  deadline := none
  plan := none
  run := none

/-- BREAK_LOAD, first part: a body in range whose break number is new, with room in the queue and in the
pool, every clip READY and every item's clip of 2,048 clip frames or more, puts the record its fields
describe at the end of the channel's queue: LOADING with more to follow and PENDING without, its trigger,
window, network level, fill, expiry and items as sent, levels and overlaps put into their ranges.  Each
clip gets one more hold; the reply carries the queue place, the items and the free items of the pool.  A
body out of range is refused with BAD_FIELD, and a part a later check refuses changes nothing.  (A
more-to-follow or presence byte other than 0 and 1 is BAD_FIELD: log entry 15.) -/
def Sys2Proof.Machine.Claim.firstPartBuildsTheRecord : Prop :=
  ∀ (s : State) (src : Byte) (h : CmdHeader) (body : List Byte) (rest : List Command),
    s.formed → ready s src h body rest → h.code = 0x30 → byteAt body 3 = 0 →
    body.length = 25 + 16 * byteAt body 24 →
    let u := taken s rest
    let r := recordOf body
    let clamped := decide (4095 < field body 14 2)
      || (List.range (byteAt body 24)).any fun k => itemClamped (itemAt body 25 k)
    (¬firstPartAllowed body s.clock.ac →
        answers .breakLoadFirstPart s src h (.refused .badField) u)
      ∧ ∀ c : Fin 4, byteAt body 0 = c.val → firstPartAllowed body s.clock.ac →
        (∀ f, firstCheck c r s = some f → answers .breakLoadFirstPart s src h (.refused f) u)
          ∧ (s.record c r.number = none → (s.ch c).queue.length < 8 →
              r.items.length ≤ s.poolFree → (∀ n ∈ r.clips, (s.entry n).state = .ready) →
              (∀ i ∈ r.items, 2048 ≤ (s.entry i.clip).length) → ∃ t,
            answers .breakLoadFirstPart s src h (.done clamped false
                (toBytes ((s.ch c).queue.length + 1) 1 ++ toBytes r.items.length 1
                  ++ toBytes (s.poolFree - r.items.length) 2)) t
              ∧ t.ch c = { s.ch c with queue := (s.ch c).queue ++ [r] }
              ∧ (∀ d, d ≠ c → t.ch d = s.ch d)
              ∧ (∀ n, t.entry n = { s.entry n with hold := (s.entry n).hold + r.clips.count n })
              ∧ t.asrun = s.asrun ∧ t.voices = s.voices ∧ t.clock = s.clock ∧ t.memory = s.memory
              ∧ t.alert = s.alert ∧ t.tx = s.tx)

/-- BREAK_LOAD, continuation: a part in range for a LOADING record, with room for its items and with every
clip READY and long enough, adds its items to the record and makes it PENDING when nothing more follows.
Each item's clip gets one more hold; the reply carries the queue place, the items the record holds and
the free items.  A number that names no record is NOT_FOUND, a record that is not LOADING is STATE, and
a part a later check refuses changes nothing.  (A more-to-follow byte other than 0 and 1 is judged with
the items: log entry 44.) -/
def Sys2Proof.Machine.Claim.continuationAddsItems : Prop :=
  ∀ (s : State) (src : Byte) (h : CmdHeader) (body : List Byte) (rest : List Command) (c : Fin 4),
    s.formed → ready s src h body rest → h.code = 0x30 → byteAt body 3 = 1 →
    body.length = 6 + 16 * byteAt body 5 → byteAt body 0 = c.val → 1 ≤ field body 1 2 →
    let u := taken s rest
    let number := field body 1 2
    let count := byteAt body 5
    let items := itemsOf body 6 count
    let clamped := (List.range count).any fun k => itemClamped (itemAt body 6 k)
    (s.record c number = none →
        answers .breakLoadContinuation s src h (.refused .notFound) u)
      ∧ ∀ r, s.record c number = some r →
        (r.state ≠ .loading → answers .breakLoadContinuation s src h (.refused .state) u)
          ∧ (r.state = .loading → (1 < byteAt body 4 ∨ 24 < count
              ∨ ∃ k, k < count ∧ ¬itemAllowed (itemAt body 6 k)) →
            answers .breakLoadContinuation s src h (.refused .badField) u)
          ∧ (∀ f, r.state = .loading → continuationCheck r body s = .error f →
            answers .breakLoadContinuation s src h (.refused f) u)
          ∧ (r.state = .loading → byteAt body 4 ≤ 1 →
              (∀ k, k < count → itemAllowed (itemAt body 6 k)) → r.items.length + count ≤ 24 →
              (byteAt body 4 = 1 ∨ 1 ≤ r.items.length + count) → count ≤ s.poolFree →
              (∀ i ∈ items, (s.entry i.clip).state = .ready) →
              (∀ i ∈ items, 2048 ≤ (s.entry i.clip).length) →
              ((s.ch c).queue.map fun q => q.number).Nodup → ∃ t,
            answers .breakLoadContinuation s src h (.done clamped false
                (toBytes ((s.ch c).queue.findIdx (fun q => q.number == number) + 1) 1
                  ++ toBytes (r.items.length + count) 1 ++ toBytes (s.poolFree - count) 2)) t
              ∧ t.record c number = some { r with
                  items := r.items ++ items
                  state := if byteAt body 4 = 1 then .loading else .pending }
              ∧ (∀ m, m ≠ number → t.record c m = s.record c m)
              ∧ (∀ d, d ≠ c → t.ch d = s.ch d)
              ∧ (∀ n, t.entry n = { s.entry n with
                  hold := (s.entry n).hold + (items.map fun i => i.clip).count n })
              ∧ t.asrun = s.asrun ∧ t.voices = s.voices ∧ t.clock = s.clock ∧ t.memory = s.memory)

/-- BREAK_CANCEL of a LOADING or PENDING record removes it without an as-run record and gives its
holds back; of a record in flight it is BREAK_ABORT.  BREAK_ABORT of an ON_AIR break sets X to the
last frame formed with the cause ABORT and joins at once, and answers the number, 1 and X; of a
JOINING one it answers the same and changes nothing; with no break in flight it is refused. -/
def Sys2Proof.Machine.Claim.cancelAndAbortAnswer : Prop :=
  (∀ (s : State) (src : Byte) (h : CmdHeader) (c : Fin 4) (r : BreakRecord) (rest : List Command),
    s.formed → 1 ≤ r.number → r.number ≤ 65535 →
    ready s src h ([BitVec.ofNat 8 c.val] ++ toBytes r.number 2) rest → h.code = 0x31 →
    s.record c r.number = some r → (r.state = .loading ∨ r.state = .pending) →
    (∀ n ∈ r.clips, (s.entry n).state = .ready) → ∃ t,
    answers .breakCancel s src h (.done false false []) t
      ∧ t.ch c = { s.ch c with queue := (s.ch c).queue.filter fun q => q.number != r.number }
      ∧ (∀ d, d ≠ c → t.ch d = s.ch d)
      ∧ (∀ n, (t.entry n).hold = (s.entry n).hold - r.clips.count n)
      ∧ t.asrun = s.asrun ∧ t.voices = s.voices ∧ t.clock = s.clock ∧ t.memory = s.memory)
  ∧ (∀ (s : State) (src : Byte) (h : CmdHeader) (c : Fin 4) (r : BreakRecord)
      (rest : List Command), 1 ≤ r.number → r.number ≤ 65535 →
    ready s src h ([BitVec.ofNat 8 c.val] ++ toBytes r.number 2) rest → h.code = 0x31 →
    s.record c r.number = some r → r.state.inFlight = true →
    let a := abortBreak c (taken s rest)
    answers .breakCancel s src h (abortReply a.1 a.2).1 a.2)
  ∧ ∀ (s : State) (src : Byte) (h : CmdHeader) (c : Fin 4) (rest : List Command),
    ready s src h [BitVec.ofNat 8 c.val] rest → h.code = 0x34 →
    let u := taken s rest
    let a := abortBreak c u
    answers .breakAbort s src h (abortReply a.1 a.2).1 a.2
      ∧ (s.flight c = none → answers .breakAbort s src h (.refused .state) u)
      ∧ (∀ r p, s.flight c = some r → r.state = .joining → r.plan = some p →
        answers .breakAbort s src h
          (.done false false (toBytes r.number 2 ++ [1] ++ toBytes p.ret.toNat 4)) u)
      ∧ (∀ r p, s.flight c = some r → s.record c r.number = some r → r.state = .onAir →
        r.plan = some p → (s.ch c).state = .onBreak → (s.ch c).gain ≠ 3840 →
        (s.ch c).config.joinFade ≠ 0 → ∃ t q,
        answers .breakAbort s src h
            (.done false false (toBytes r.number 2 ++ [1] ++ toBytes s.clock.ac.toNat 4)) t
          ∧ (t.ch c).state = .joining ∧ (t.ch c).gainTarget = 3840
          ∧ t.record c r.number = some q ∧ q.state = .joining
          ∧ q.plan = some { p with ret := s.clock.ac } ∧ q.run.map (fun x => x.cause) =
              r.run.map (fun _ => .abort)
          ∧ t.asrun = s.asrun ∧ t.clock = s.clock ∧ t.memory = s.memory)

/-- BREAK_ABORT of a break in PREROLL withdraws it (R147): one NOT_AIRED record per item with the cause
ABORT and the planned start, squeeze factor and late flag of the plan, no FILL record; both voices FREE;
the channel back at its preroll origin; the record gone and its holds returned.  The reply carries the
number, 0, and X as 0 (log entry 17). -/
def Sys2Proof.Machine.Claim.abortWithdrawsAPreroll : Prop :=
  ∀ (s : State) (src : Byte) (h : CmdHeader) (c : Fin 4) (r : BreakRecord) (p : Plan) (start : AC)
      (a b : Fin 16) (rest : List Command),
    ready s src h [BitVec.ofNat 8 c.val] rest → h.code = 0x34 → s.formed → s.flight c = some r →
    s.record c r.number = some r → r.state = .preroll → r.plan = some p → r.start = some start →
    p.voices = some (a, b) → a ≠ b → (s.voice a).state ≠ .free → (s.voice b).state ≠ .free →
    (s.ch c).state = .preroll → (s.ch c).emClear = false →
    let rows := (r.items.zipIdx 1).filterMap fun q =>
      (p.items.find? fun i => i.number == q.2).map fun i => ({
        channel := c, kind := .item, breakNo := some r.number, itemNo := some q.2, clip := q.1.clip
        spotKey := (s.entry q.1.clip).spotKey, outcome := .notAired, cause := .abort, late := p.late
        planned := some (start + BitVec.ofInt 32 i.start), aired := none
        squeeze := i.squeeze } : AsRunRecord)
    s.asrun.records.length + rows.length ≤ 256 →
    ∃ t, answers .breakAbort s src h (.done false false (toBytes r.number 2 ++ [0, 0, 0, 0, 0])) t
      ∧ t.ch c = { s.ch c with
          state := if (s.ch c).origin = some .emergency then .emergency else .network
          origin := none, queue := (s.ch c).queue.filter fun q => q.number != r.number }
      ∧ t.asrun = ⟨s.asrun.records ++ rows, s.asrun.lost⟩
      ∧ t.voice a = Voice.freed ∧ t.voice b = Voice.freed
      ∧ (∀ v, v ≠ a → v ≠ b → t.voice v = s.voice v)
      ∧ (∀ n, (t.entry n).hold = (s.entry n).hold - (r.clips.count n
          + (if (s.voice a).clip = some n then 1 else 0)
          + if (s.voice b).clip = some n then 1 else 0))
      ∧ (∀ d, d ≠ c → t.ch d = s.ch d) ∧ t.memory = s.memory ∧ t.clock = s.clock ∧ t.tx = s.tx

/-- BREAK_LIST without a number answers the queue length, the free pool and whole summaries in load
order; with a number that record's summary and items; an unknown number is NOT_FOUND.  As many parts
as fit the data limit are sent, TRUNCATED when one did not, and nothing changes.  (That the listing of
one record is cut part by part is log entry 18.) -/
def Sys2Proof.Machine.Claim.breakListAnswersTheQueue : Prop :=
  ∀ (s : State) (src : Byte) (h : CmdHeader) (c : Fin 4) (n : Nat) (rest : List Command),
    n < 65536 → ready s src h ([BitVec.ofNat 8 c.val] ++ toBytes n 2) rest → h.code = 0x32 →
    let u := taken s rest
    let sent (parts : List (List Byte)) : Prop := ∃ k, k ≤ parts.length
      ∧ ((parts.take k).flatten).length ≤ dataLimit h - 3
      ∧ (k < parts.length → dataLimit h - 3 < ((parts.take (k + 1)).flatten).length)
      ∧ answers .breakList s src h (.done false (decide (k < parts.length))
          (toBytes (s.ch c).queue.length 1 ++ toBytes s.poolFree 2 ++ (parts.take k).flatten)) u
    (n = 0 → sent (((s.ch c).queue.zipIdx 1).map fun q => summaryBytes q.2 q.1))
      ∧ (∀ r, n ≠ 0 → s.record c n = some r →
          sent (summaryBytes ((s.ch c).queue.findIdx (fun q => q.number == n) + 1) r
            :: r.items.map itemBytes))
      ∧ (n ≠ 0 → s.record c n = none → answers .breakList s src h (.refused .notFound) u)

/-- BREAK_FIRE: a channel that is not free is refused with STATE; a chosen record is a PENDING MANUAL
one; a grant takes the trigger with S 64 frames after the last frame formed and D at S plus the
window, and answers number, S, D, X and the number of placed items; a refused claim is answered with
NO_VOICE.  (A reply longer than a small data limit is cut: log entry 12; the fields of a reply with an
empty plan: log entry 17.) -/
def Obligations.BreakFireStartsTheBreak : Prop :=
  ∀ (s : State) (src : Byte) (h : CmdHeader) (c : Fin 4) (n : Nat) (rest : List Command),
    n < 65536 → ready s src h ([BitVec.ofNat 8 c.val] ++ toBytes n 2) rest → h.code = 0x33 →
    let u := taken s rest
    let firable (q : BreakRecord) : Bool := q.state == .pending && q.trigger == .manual
    (s.freeForBreak c = false → answers .breakFire s src h (.refused .state) u)
      ∧ (s.freeForBreak c = true → n = 0 → (s.ch c).queue.find? firable = none →
          answers .breakFire s src h (.refused .notFound) u)
      ∧ (s.freeForBreak c = true → n ≠ 0 → s.record c n = none →
          answers .breakFire s src h (.refused .notFound) u)
      ∧ (∀ r, s.freeForBreak c = true → n ≠ 0 → s.record c n = some r → firable r = false →
          answers .breakFire s src h (.refused .state) u)
      ∧ ∀ r, s.freeForBreak c = true →
          (n = 0 ∧ (s.ch c).queue.find? firable = some r
            ∨ n ≠ 0 ∧ s.record c n = some r ∧ firable r = true) →
          let start := s.clock.ac + 64
          let d := acceptTrigger c r.number start
            (if r.window = 0 then none else some (start + BitVec.ofNat 32 r.window)) false u
          (d.1 = .refused → answers .breakFire s src h (.refused .noVoice) d.2)
            ∧ (d.1 = .emptyPlan → ∃ more, more.length = 14 ∧
                answers .breakFire s src h (.done false false (toBytes r.number 2 ++ more)) d.2)
            ∧ (∀ q p, d.1 = .granted → d.2.record c r.number = some q → q.plan = some p →
                answers .breakFire s src h (.done false false
                  (toBytes r.number 2 ++ acBytes q.start ++ acPresent q.deadline
                    ++ toBytes p.ret.toNat 4 ++ toBytes p.placed.length 1)) d.2)

/-- VOICE_TRIM with no break in flight is refused; with one it stages the target for each PLAYING
voice of the break whose ramp does not end in STOP, the level with the trim of the voice's clip, answers
how many, and changes nothing else; a voice without a clip is RESERVED and takes nothing. -/
def Obligations.VoiceTrimStagesTheLevel : Prop :=
  ∀ (s : State) (src : Byte) (h : CmdHeader) (c : Fin 4) (level rate : Nat) (rest : List Command),
    level < 65536 → rate < 256 →
    ready s src h ([BitVec.ofNat 8 c.val] ++ toBytes level 2 ++ toBytes rate 1) rest →
    h.code = 0x35 →
    let u := taken s rest
    let takes (v : Fin 16) : Bool :=
      (s.voice v).state == .playing && !(s.voice v).ramp.any fun r => r.stop
    let trim (v : Fin 16) : Int := match (s.voice v).clip with
      | some n => (s.entry n).trim
      | none => 0
    let target (v : Fin 16) : Nat := targetCode (min level 4095) (trim v)
    (s.flight c = none → answers .voiceTrim s src h (.refused .state) u)
      ∧ ∀ r p a b, s.flight c = some r → r.plan = some p → p.voices = some (a, b) → a ≠ b →
          answers .voiceTrim s src h
            (.done (decide (4095 < level) || decide (rate = 0)) false
              [(if takes a then 1 else 0) + if takes b then 1 else 0])
            (let t := if takes a then u.setVoice a { s.voice a with
                staged := some ⟨target a, max rate 1⟩ } else u
            if takes b then t.setVoice b { s.voice b with
                staged := some ⟨target b, max rate 1⟩ } else t)

/-! ### Contact and as-run commands (sections 9.3, 9.4 and 10.2) -/

/-- GPI_SET and GPO_SET on a line of the part with a function in range replace that line's function
and answer all lines, with line 0xFF they answer and change nothing, and a line the part does not
have is refused.  (A table longer than a small data limit is
cut: log entry 12.) -/
def Sys2Proof.Machine.Claim.contactCommandsSetFunctions : Prop :=
  (∀ (s : State) (src : Byte) (h : CmdHeader) (body : List Byte) (rest : List Command),
    ready s src h body rest → h.code = 0x40 → body.length = 7 →
    let u := taken s rest
    (byteAt body 0 = 255 → answers .gpiSet s src h (.done false false (gpiTable s)) u)
      ∧ (8 ≤ byteAt body 0 → byteAt body 0 ≠ 255 →
          answers .gpiSet s src h (.refused .badField) u)
      ∧ ∀ (g : Fin 8), byteAt body 0 = g.val →
          (∀ fn clamped, gpiFunctionOf (byteAt body 1) (byteAt body 2) (field body 3 2)
              (field body 5 2) = some (fn, clamped) →
            let t := u.setGpiLine g { s.gpiLine g with fn := fn }
            answers .gpiSet s src h (.done clamped false (gpiTable t)) t)
          ∧ (gpiFunctionOf (byteAt body 1) (byteAt body 2) (field body 3 2) (field body 5 2) = none →
            answers .gpiSet s src h (.refused .badField) u))
  ∧ ∀ (s : State) (src : Byte) (h : CmdHeader) (line fn channel : Byte) (rest : List Command),
    ready s src h [line, fn, channel] rest → h.code = 0x41 →
    let u := taken s rest
    (line = 255 → answers .gpoSet s src h (.done false false (gpoTable s)) u)
      ∧ (4 ≤ line.toNat → line ≠ 255 → answers .gpoSet s src h (.refused .badField) u)
      ∧ ∀ (g : Fin 4), line.toNat = g.val →
          (∀ f, gpoFunctionOf fn.toNat channel.toNat = some f →
            let t := u.setGpo (s.gpo.set g.val f)
            answers .gpoSet s src h (.done false false (gpoTable t)) t)
          ∧ (gpoFunctionOf fn.toNat channel.toNat = none →
            answers .gpoSet s src h (.refused .badField) u)

/-- The contact functions by their codes (R164, R165, R201): for GPI 0 NONE, 1 MIC_LIVE, 2 BREAK, 3 ABORT,
4 EMERGENCY, 5 CART with a clip up to 1,023 and a level put at 4095 at most; for GPO 0 NONE, 1 ON_AIR,
2 SILENCE, 3 ALERT_PENDING, 4 LOCKED; any other code, or a channel above 3 where one is named, has no
function. -/
def Sys2Proof.Machine.Claim.contactFunctionsByCode : Prop :=
  (∀ (fn channel clip level : Nat),
    gpiFunctionOf 0 channel clip level = some (.none, false)
      ∧ (∀ c : Fin 4, gpiFunctionOf 1 c.val clip level = some (.micLive c, false)
          ∧ gpiFunctionOf 2 c.val clip level = some (.brk c, false)
          ∧ gpiFunctionOf 3 c.val clip level = some (.abort c, false)
          ∧ gpiFunctionOf 4 c.val clip level = some (.emergency c, false)
          ∧ (clip ≤ 1023 → gpiFunctionOf 5 c.val clip level
              = some (.cart c clip (min level 4095), decide (4095 < level)))
          ∧ (1023 < clip → gpiFunctionOf 5 c.val clip level = none))
      ∧ (5 < fn ∨ 3 < channel ∧ 0 < fn → gpiFunctionOf fn channel clip level = none))
  ∧ ∀ (fn channel : Nat),
    gpoFunctionOf 0 channel = some .none ∧ gpoFunctionOf 3 channel = some .alertPending
      ∧ gpoFunctionOf 4 channel = some .locked
      ∧ (∀ c : Fin 4, gpoFunctionOf 1 c.val = some (.onAir c) ∧ gpoFunctionOf 2 c.val = some (.silence c))
      ∧ (4 < fn ∨ 3 < channel ∧ (fn = 1 ∨ fn = 2) → gpoFunctionOf fn channel = none)

/-- ASRUN_FETCH answers a summary and the oldest records, whole, as many as the maximum (0 for no
maximum) and the data limit allow; with PEEK nothing changes; otherwise those records leave the queue
and the lost count becomes 0, even when no record is returned; the byte after it is the level after the
command (both log entry 16).  (Stated for a depth below 192, where no level changes.) -/
def Sys2Proof.Machine.Claim.asRunFetchTakesTheOldest : Prop :=
  ∀ (s : State) (src : Byte) (h : CmdHeader) (maximum : Nat) (rest : List Command),
    maximum ≤ 256 → ready s src h (toBytes maximum 2) rest → h.code = 0x50 →
    s.asrun.records.length < 192 →
    let u := taken s rest
    let wanted := (if maximum = 0 then s.asrun.records
      else s.asrun.records.take maximum).map recordBytes
    ∃ n, n ≤ wanted.length ∧ ((wanted.take n).flatten).length ≤ dataLimit h - 8
      ∧ (n < wanted.length → dataLimit h - 8 < ((wanted.take (n + 1)).flatten).length)
      ∧ (h.peek = true → answers .asrunFetch s src h (.done false (decide (n < wanted.length))
          (toBytes n 2 ++ toBytes s.asrun.records.length 2 ++ toBytes s.asrun.lost 2 ++ [1, 0]
            ++ (wanted.take n).flatten)) u)
      ∧ (h.peek = false → answers .asrunFetch s src h (.done false (decide (n < wanted.length))
          (toBytes n 2 ++ toBytes (s.asrun.records.length - n) 2 ++ toBytes s.asrun.lost 2 ++ [0, 0]
            ++ (wanted.take n).flatten)) (u.setAsrun ⟨s.asrun.records.drop n, 0⟩))

/-- ASRUN_DISCARD removes the oldest records, as many as asked or as there are, answers how many, the
depth left and the lost count, and sets the lost count to 0.  (Stated for a depth below 192.) -/
def Sys2Proof.Machine.Claim.asRunDiscardRemovesTheOldest : Prop :=
  ∀ (s : State) (src : Byte) (h : CmdHeader) (n : Nat) (rest : List Command), n ≤ 256 →
    ready s src h (toBytes n 2) rest → h.code = 0x51 → s.asrun.records.length < 192 →
    let k := min n s.asrun.records.length
    answers .asrunDiscard s src h
      (.done false false (toBytes k 2 ++ toBytes (s.asrun.records.length - k) 2
        ++ toBytes s.asrun.lost 2)) ((taken s rest).setAsrun ⟨s.asrun.records.drop k, 0⟩)

/-- A record handed to the as-run queue is kept at its end while it holds fewer than 256, is lost and
counted when it holds 256, and raises ASRUN_HIGH when it brings the depth to 192. -/
def Sys2Proof.Machine.Claim.asRunQueueKeepsOrLoses : Prop :=
  ∀ (r : AsRunRecord) (s : State),
    (s.asrun.records.length < 191 ∨
        192 ≤ s.asrun.records.length ∧ s.asrun.records.length < 256 →
      asrunWrite r s = s.setAsrun ⟨s.asrun.records ++ [r], s.asrun.lost⟩)
    ∧ (s.asrun.records.length = 191 → asrunWrite r s =
        raiseAlert .asrunHigh (s.setAsrun ⟨s.asrun.records ++ [r], s.asrun.lost⟩))
    ∧ (256 ≤ s.asrun.records.length → asrunWrite r s =
        s.setAsrun ⟨s.asrun.records, min (s.asrun.lost + 1) 65535⟩)

/-! ### The layouts of the records sent (R199 to R202) -/

/-- These fields stand in the bytes: at an offset, over a width in bytes, most significant first, a value
(R195). -/
def Sys2Proof.Machine.Claim.holdsFields (l : List Byte) (fields : List (Nat × Nat × Nat)) : Prop :=
  ∀ q ∈ fields, field l q.1 q.2.1 = q.2.2 % 256 ^ q.2.1

/-- The number of an enumerated value: its place in the order of the table of R201. -/
def Sys2Proof.Machine.Claim.codeIn {α : Type} [BEq α] (order : List α) (x : α) : Nat := order.idxOf x

/-- The channel configuration record: 35 bytes, each field of R64 at its offset. -/
def Sys2Proof.Machine.Claim.configFieldsAtOffsets : Prop :=
  ∀ x : ChannelConfig, (configBytes x).length = 35 ∧ holdsFields (configBytes x) [
    (0, 1, x.enable.toNat), (1, 1, x.slotL), (2, 1, x.slotR), (3, 2, x.openFade), (5, 2, x.joinFade),
    (7, 2, x.fillClip.getD 0xFFFF), (9, 2, x.fillLevel), (11, 4, x.fillThreshold),
    (15, 2, x.emClip.getD 0xFFFF), (17, 2, x.emLevel), (19, 1, x.autoFill.toNat),
    (20, 4, x.silThreshold), (24, 2, x.silLimit), (26, 2, x.recLimit), (28, 2, x.duckDepth),
    (30, 1, x.duckRate), (31, 4, x.lateGrace)]

/-- A directory entry as sent: 48 bytes, its clip number and each field of the directory table at its
offset, the trim in two's complement, the label as its 16 bytes. -/
def Sys2Proof.Machine.Claim.entryFieldsAtOffsets : Prop :=
  ∀ (n : Nat) (e : DirEntry), let l := entryBytes n e
    l.length = 48 ∧ (l.drop 28).take 16 = e.label.toList ∧ holdsFields l [
      (0, 2, n), (2, 1, codeIn [.empty, .armed, .filling, .ready] e.state),
      (3, 1, codeIn [.library, .ring] e.region), (4, 2, e.firstPage), (6, 4, e.length),
      (10, 1, codeIn [.mono, .stereo] e.layout),
      (11, 2, match e.rate with | .r32000 => 32000 | .r44100 => 44100 | .r48000 => 48000),
      (13, 2, (e.trim % 65536).toNat), (15, 1, e.loop.isSome.toNat), (16, 4, (e.loop.getD (0, 0)).1),
      (20, 4, (e.loop.getD (0, 0)).2), (24, 4, e.spotKey.toNat), (44, 2, e.damage), (46, 2, e.hold)]

/-- A BREAK_LIST summary of 38 bytes and an item record of 16, each field at its offset; an absent fill
clip is 0xFFFF, any other absent field 0. -/
def Sys2Proof.Machine.Claim.summaryFieldsAtOffsets : Prop :=
  (∀ (place : Nat) (r : BreakRecord), let l := summaryBytes place r
    let ret := r.plan.map fun p => p.ret
    l.length = 38 ∧ holdsFields l [
      (0, 2, r.number), (2, 1, place),
      (3, 1, codeIn [.loading, .pending, .preroll, .onAir, .joining] r.state),
      (4, 1, match r.trigger with | .cue _ => 0 | .time _ => 1 | .manual => 2),
      (5, 4, match r.trigger with | .cue key => key | .time a => a.toNat | .manual => 0),
      (9, 4, r.window), (13, 2, r.netLevel), (15, 2, r.fillClip.getD 0xFFFF),
      (17, 1, r.expiry.isSome.toNat), (18, 4, (r.expiry.getD 0).toNat), (22, 1, r.items.length),
      (23, 1, r.start.isSome.toNat), (24, 4, (r.start.getD 0).toNat),
      (28, 1, r.deadline.isSome.toNat), (29, 4, (r.deadline.getD 0).toNat),
      (33, 1, ret.isSome.toNat), (34, 4, (ret.getD 0).toNat)])
  ∧ ∀ i : Item, (itemBytes i).length = 16 ∧ holdsFields (itemBytes i) [
      (0, 2, i.clip), (2, 1, codeIn [.must, .drop] i.cls), (3, 1, i.stretch.toNat), (4, 2, i.level),
      (6, 4, i.overlap),
      (10, 1, i.fadeIn.isSome.toNat), (11, 1, (i.fadeIn.map fun f => f.rate).getD 0),
      (12, 1, (i.fadeIn.map fun f => f.interval).getD 0),
      (13, 1, i.fadeOut.isSome.toNat), (14, 1, (i.fadeOut.map fun f => f.rate).getD 0),
      (15, 1, (i.fadeOut.map fun f => f.interval).getD 0)]

/-- An as-run record as sent (R168, R200): the short form of 16 bytes for a record that did not air, the
full form of 28 for one that did, each field at its offset, bits and absent fields as R200 gives. -/
def Sys2Proof.Machine.Claim.recordFieldsAtOffsets : Prop :=
  ∀ r : AsRunRecord, let l := recordBytes r
    l.length = (if r.aired.isSome then 28 else 16)
      ∧ holdsFields l [
        (0, 1, r.channel.val * 64 + codeIn [.item, .fill, .cart, .emergency] r.kind * 16
          + codeIn [.full, .cut, .dropped, .notAired] r.outcome * 4 + r.late.toNat),
        (1, 1, codeIn [.none, .fit, .time, .close, .abort, .reset, .noVoice, .missed] r.cause * 32
          + r.itemNo.getD 0),
        (2, 2, r.breakNo.getD 0), (4, 2, r.clip), (6, 4, r.spotKey.toNat),
        (10, 4, (r.planned.getD 0).toNat), (14, 2, (r.squeeze.getD 65536) - 65536)]
      ∧ ∀ a, r.aired = some a → holdsFields l [
        (16, 4, a.startAC.toNat), (20, 4, a.endAC.toNat), (24, 4, a.frames)]

/-- The status record (R202): eight sections of 44, 28, 33, four times 33, and 2 bytes, 239 in all, with
each field at its offset. -/
def Sys2Proof.Machine.Claim.statusFieldsAtOffsets : Prop :=
  ∀ s : State, let l := (statusSections s).flatten
    let st := s.store
    let rp := 4096 - st.lp
    let onAir (c : Fin 4) : Bool :=
      (s.ch c).state == .preroll || (s.ch c).state == .onBreak || (s.ch c).state == .joining
    (statusSections s).map (fun x => x.length) = [44, 28, 33, 33, 33, 33, 33, 2]
      ∧ holdsFields l [
        (0, 4, s.clock.ac.toNat), (4, 1, codeIn [.search, .verify, .locked] s.rx.lock),
        (5, 1, codeIn [.follow, .holdover] s.tx.mode), (6, 1, s.rx.syncSlip.toNat),
        (7, 2, s.tx.holdover), (9, 1, s.lane.unitAddr.toNat), (10, 1, s.lane.groupAddr.toNat),
        (11, 2, s.rx.syncMiss), (13, 2, s.rx.checkFail), (15, 2, s.rx.lockLoss), (17, 2, s.lane.stray),
        (19, 2, s.lane.headerError), (21, 2, s.lane.badCheck), (23, 2, s.lane.misdirected),
        (25, 2, s.lane.unknownKind), (27, 2, s.lane.broken), (29, 2, s.tx.timingSlip),
        (31, 2, s.tx.fifoOverflow), (33, 1, s.clock.mark.valid.toNat), (34, 4, s.clock.mark.ac.toNat),
        (38, 4, s.clock.mark.seconds), (42, 2, s.clock.mark.frame)]
      ∧ holdsFields l [
        (44, 2, s.cues.cue), (46, 2, s.cues.unknown), (48, 2, s.cues.malformed),
        (50, 2, s.cues.unmatched), (52, 2, s.cues.refused), (54, 2, s.cues.recordBusy),
        (56, 2, s.cues.recordUnmatched), (58, 1, 8 - s.cmd.queue.length), (59, 1, s.cmd.replies.length),
        (60, 1, s.cmd.assembly.isSome.toNat), (61, 2, s.cmd.reportDrops), (63, 4, s.alert.mask.toNat),
        (67, 4, s.alert.changed.toNat), (71, 1, s.alert.pending.toNat)]
      ∧ holdsFields l [
        (72, 1, st.engine.isSome.toNat), (73, 2, (st.engine.map fun g => g.arm.clip).getD 0),
        (75, 4, (st.engine.map fun g => g.words).getD 0), (79, 1, st.armList.length), (80, 2, st.lp),
        (82, 2, st.currentPage), (84, 2, st.boundaryPage),
        (86, 2, if st.ringList = [] then rp else (st.boundaryPage + rp - st.currentPage) % rp),
        (88, 2, st.lastReport.clip),
        (90, 1, codeIn [.none, .limit, .cueStop, .commandStop, .regionEnd, .emptyClip, .noRoom,
          .linkLost] st.lastReport.outcome),
        (91, 4, st.lastReport.length), (95, 1, allVoices.countP fun v => (s.voice v).state == .free),
        (96, 1, s.reserve), (97, 1, s.events.length), (98, 2, 384 - (allChannels.map fun c =>
          ((s.ch c).queue.map fun r => r.items.length).sum).sum),
        (100, 2, s.asrun.records.length), (102, 2, s.asrun.lost),
        (104, 1, (decide (192 ≤ s.asrun.records.length)).toNat)]
      ∧ (∀ c : Fin 4, let x := s.ch c
        let m := x.monitor
        let b := 105 + 33 * c.val
        let owned (p : Purpose) : Nat := allVoices.countP fun v => (s.voice v).owner == some ⟨c, p⟩
        holdsFields l [
          (b, 1, x.config.enable.toNat),
          (b + 1, 1, codeIn [.halted, .network, .preroll, .onBreak, .joining, .emergency] x.state),
          (b + 2, 1, codeIn [none, some .network, some .emergency] x.origin),
          (b + 3, 1, x.returning.toNat), (b + 4, 2, x.gain), (b + 6, 2, x.gainTarget), (b + 8, 2, x.duck),
          (b + 10, 1, (allGpi.any fun g => (s.gpiLine g).stable
            && (s.gpiLine g).fn == .micLive c).toNat),
          (b + 11, 2, x.saturation), (b + 13, 2, x.cartRefusals), (b + 15, 2, x.fireRefusals),
          (b + 17, 1, owned .brk), (b + 18, 1, owned .cart), (b + 19, 1, owned .emergency),
          (b + 20, 1, x.queue.length), (b + 21, 2, ((s.flight c).map fun r => r.number).getD 0),
          (b + 23, 1, ((s.flight c).map fun r =>
            codeIn [.loading, .pending, .preroll, .onAir, .joining] r.state).getD 0),
          (b + 24, 2, m.silentCount), (b + 26, 1, m.silence.toNat), (b + 27, 2, m.recoveryCount),
          (b + 29, 1, codeIn [.none, .covering, .recovering, .yielding] m.phase),
          (b + 30, 1, (m.emRecord.map fun r => r.voice.val).getD 0), (b + 31, 2, m.refusals)])
      ∧ (∀ g : Fin 8, (l.getD 237 0).getLsbD g.val = (s.gpiLine g).stable)
      ∧ (∀ g : Fin 4, (l.getD 238 0).getLsbD g.val = match s.gpo[g.val] with
          | .none => false
          | .onAir c => onAir c
          | .silence c => (s.ch c).monitor.silence
          | .alertPending => s.alert.pending
          | .locked => s.rx.lock == .locked)
      ∧ (l.getD 238 0).toNat < 16

/-! ### Statements made of the parts above -/

/-- A packet for no unit here goes through whole: it enters the pass-through FIFO byte for byte, and the
merger sends it byte for byte. -/
def Obligations.PassedPacketsGoThroughWhole : Prop :=
  passedPacketEntersTheFifoWhole ∧ mergerSendsAPassedPacketWhole

/-- A reply packet goes from the build area to the reply queue and from there, whole, to the lane. -/
def Obligations.RepliesLeaveInOrder : Prop :=
  replyPacketEntersTheQueue ∧ mergerSendsAReplyWhole

/-- The receiver's way to LOCKED: SYNC_FOUND and VERIFY_FRAME. -/
def Obligations.HuntAndVerify : Prop :=
  syncFoundEntersVerify ∧ verifyFrameCountsSyncs

/-- A packet for the unit comes through the lane parser, and its bytes come from good frames. -/
def Obligations.PacketForTheUnitIsRouted : Prop :=
  packetForTheUnitIsRouted ∧ goodFrameBringsItsBytes

/-- A failed frame, at the receiver and at the lane parser. -/
def Obligations.FailedFramesCarryHeldValues : Prop :=
  failedFrameCarriesHeldValues ∧ failedFrameBreaksThePacket

/-- The ingest engine writes the frame's words at the clip's next words, and nowhere else. -/
def Obligations.IngestCapturesTheFrame : Prop :=
  goodFrameIsCaptured ∧ captureWritesOnlyTheNextWords

/-- The number of frames a clip airs, and the number of boundaries a fade takes. -/
def Obligations.ClipsAndFadesEndInTime : Prop :=
  framesAiredAreExact ∧ timedFadesArriveInTime

/-- The as-run queue: written at its end, fetched and discarded from its front, and its records as sent. -/
def Obligations.AsRunQueueKeepsItsOrder : Prop :=
  asRunQueueKeepsOrLoses ∧ asRunFetchTakesTheOldest ∧ asRunDiscardRemovesTheOldest ∧ recordFieldsAtOffsets

/-- The silence monitor: SILENCE_LIMIT_REACHED, RECOVERY_LIMIT_REACHED, and the judgment of a block that
makes them due. -/
def Obligations.SilenceAndRecoveryLimits : Prop :=
  silenceLimitRaisesTheLevel ∧ recoveryLimitBeginsTheReturn ∧ blockIsJudged

/-- The two commands that change a READY entry: DIR_WRITE and DIR_ERASE. -/
def Obligations.DirWriteAndErase : Prop :=
  dirWriteEditsTheEntry ∧ dirEraseEmptiesTheEntry

/-- Commands from packets: COMMAND, COMMAND_MORE and ASSEMBLY_TIMEOUT. -/
def Obligations.CommandsAreAssembled : Prop :=
  commandPacketsBuildTheQueue ∧ assemblyTimesOut

/-- The moments of waiting break records: BREAK_EXPIRY and TIME_TRIGGER. -/
def Obligations.ExpiryAndTimeAreJudged : Prop :=
  expiredBreakIsMissed ∧ timeBreakIsTriggered

/-- A voice in an egress frame: VOICE_START, VOICE_END and VOICE_FADED. -/
def Obligations.VoicesStartAndStop : Prop :=
  voiceStartsAndSounds ∧ voiceEndsOrFades

/-- What an egress frame carries: a frame the next unit finds good, and in it the mix of each channel after
the moves of a boundary frame, also as the egress frame rows send it. -/
def Obligations.EgressFramesPassTheFrameCheck : Prop :=
  framesPassTheFrameCheck ∧ mixAddsVoicesAndNetwork ∧ gainAndDuckMoveAtBoundaries ∧ egressFrameCarriesTheMix

/-- VOICE_EVENT_DELIVERY to each of the three owners of a voice: the cart logic, the silence monitor and a
break that is ON_AIR. -/
def Obligations.CartEndWritesItsRecord : Prop :=
  cartEndWritesItsRecord ∧ emergencyEventsAreTaken ∧ breakEventsMoveTheParts

/-- The join of a break from its begin at X to the return to NETWORK. -/
def Obligations.JoinBeginsAtTheReturn : Prop :=
  joinBeginsAtTheReturn ∧ joinEndsWithTheLastVoice ∧ joinedItemsAreRecorded

/-- The plan of a hard break, and the two ends of a trigger that starts no break: an empty plan and a
refused claim. -/
def Obligations.HardPlanReturnsInTime : Prop :=
  hardPlanReturnsInTime ∧ triggerMayEndAtOnce

/-- The contact lines: the samples of a boundary frame, and what a rising edge does. -/
def Obligations.ContactLinesAreDebounced : Prop :=
  contactLinesAreDebounced ∧ risingEdgesAct ∧ risingEdgeInAFrame

/-- INGEST_STOP in every state of its entry, and RING_RETIRE. -/
def Obligations.IngestStopAndRingRetire : Prop :=
  ingestStopEndsOrDisarms ∧ ingestStopKeepsTheClip ∧ ringRetireTakesTheOldest

/-- BREAK_CANCEL and BREAK_ABORT of a record in each of its states. -/
def Obligations.BreakCancelAndAbort : Prop :=
  cancelAndAbortAnswer ∧ abortWithdrawsAPreroll

/-- GPI_SET and GPO_SET, and the functions they set. -/
def Obligations.ContactCommandsSetFunctions : Prop :=
  contactCommandsSetFunctions ∧ contactFunctionsByCode

/-- DEVICE_RESET: what it clears and what it keeps, whether or not a cue is being decoded. -/
def Obligations.DeviceResetClearsTheWork : Prop :=
  resetClearsTheWork ∧ resetClearsStoreAndAlerts ∧ resetFallsInsideACue ∧ deviceResetRecordsTheWork

/-- CHANNEL_RESET of a channel at rest, and of one with work to record. -/
def Obligations.ChannelResetRestsTheChannel : Prop :=
  channelResetRestsTheChannel ∧ channelResetRecordsTheWork

/-- BREAK_LOAD, both parts. -/
def Obligations.BreakLoadBuildsTheRecord : Prop :=
  firstPartBuildsTheRecord ∧ continuationAddsItems

/-- CHANNEL_SET, and the configuration record it answers. -/
def Obligations.ChannelSetReplacesTheFields : Prop :=
  channelSetReplacesTheFields ∧ configFieldsAtOffsets

/-- TIME_MARK, and the cues of unknown kind and of no right form. -/
def Obligations.TimeMarkIsCaptured : Prop :=
  timeMarkIsCaptured ∧ malformedCuesAreCounted

/-- STATUS_READ, and the status record it answers. -/
def Obligations.StatusReadReportsAndClears : Prop :=
  statusReadReportsAndClears ∧ statusFieldsAtOffsets

/-- DIR_READ, and the entries it answers. -/
def Obligations.DirReadAnswersEntries : Prop :=
  dirReadAnswersEntries ∧ entryFieldsAtOffsets

/-- BREAK_LIST, and the summaries and items it answers. -/
def Obligations.BreakListAnswersTheQueue : Prop :=
  breakListAnswersTheQueue ∧ summaryFieldsAtOffsets
end

