-- ==== Sys2Proof/Laws/State.lean ====
section
/-! SUPPORT. One lemma per field per setter of State, true by rfl, and the reads of a channel, voice,
contact line and entry after a write of one. -/

namespace Sys2Proof.Machine

variable (s : State)

/-! #### setRx -/

@[simp] theorem State.setRx_rx (x : Receiver) : (s.setRx x).rx = x := rfl
@[simp] theorem State.setRx_lane (x : Receiver) : (s.setRx x).lane = s.lane := rfl
@[simp] theorem State.setRx_tx (x : Receiver) : (s.setRx x).tx = s.tx := rfl
@[simp] theorem State.setRx_clock (x : Receiver) : (s.setRx x).clock = s.clock := rfl
@[simp] theorem State.setRx_cues (x : Receiver) : (s.setRx x).cues = s.cues := rfl
@[simp] theorem State.setRx_memory (x : Receiver) : (s.setRx x).memory = s.memory := rfl
@[simp] theorem State.setRx_store (x : Receiver) : (s.setRx x).store = s.store := rfl
@[simp] theorem State.setRx_voices (x : Receiver) : (s.setRx x).voices = s.voices := rfl
@[simp] theorem State.setRx_events (x : Receiver) : (s.setRx x).events = s.events := rfl
@[simp] theorem State.setRx_reserve (x : Receiver) : (s.setRx x).reserve = s.reserve := rfl
@[simp] theorem State.setRx_chans (x : Receiver) : (s.setRx x).chans = s.chans := rfl
@[simp] theorem State.setRx_gpi (x : Receiver) : (s.setRx x).gpi = s.gpi := rfl
@[simp] theorem State.setRx_gpo (x : Receiver) : (s.setRx x).gpo = s.gpo := rfl
@[simp] theorem State.setRx_asrun (x : Receiver) : (s.setRx x).asrun = s.asrun := rfl
@[simp] theorem State.setRx_cmd (x : Receiver) : (s.setRx x).cmd = s.cmd := rfl
@[simp] theorem State.setRx_alert (x : Receiver) : (s.setRx x).alert = s.alert := rfl
@[simp] theorem State.setRx_forming (x : Receiver) : (s.setRx x).forming = s.forming := rfl
@[simp] theorem State.setRx_pending (x : Receiver) : (s.setRx x).pending = s.pending := rfl
@[simp] theorem State.setRx_self : s.setRx s.rx = s := rfl
@[simp] theorem State.setRx_twice (x y : Receiver) : (s.setRx x).setRx y = s.setRx y := rfl

/-! #### setLane -/

@[simp] theorem State.setLane_rx (x : Lane) : (s.setLane x).rx = s.rx := rfl
@[simp] theorem State.setLane_lane (x : Lane) : (s.setLane x).lane = x := rfl
@[simp] theorem State.setLane_tx (x : Lane) : (s.setLane x).tx = s.tx := rfl
@[simp] theorem State.setLane_clock (x : Lane) : (s.setLane x).clock = s.clock := rfl
@[simp] theorem State.setLane_cues (x : Lane) : (s.setLane x).cues = s.cues := rfl
@[simp] theorem State.setLane_memory (x : Lane) : (s.setLane x).memory = s.memory := rfl
@[simp] theorem State.setLane_store (x : Lane) : (s.setLane x).store = s.store := rfl
@[simp] theorem State.setLane_voices (x : Lane) : (s.setLane x).voices = s.voices := rfl
@[simp] theorem State.setLane_events (x : Lane) : (s.setLane x).events = s.events := rfl
@[simp] theorem State.setLane_reserve (x : Lane) : (s.setLane x).reserve = s.reserve := rfl
@[simp] theorem State.setLane_chans (x : Lane) : (s.setLane x).chans = s.chans := rfl
@[simp] theorem State.setLane_gpi (x : Lane) : (s.setLane x).gpi = s.gpi := rfl
@[simp] theorem State.setLane_gpo (x : Lane) : (s.setLane x).gpo = s.gpo := rfl
@[simp] theorem State.setLane_asrun (x : Lane) : (s.setLane x).asrun = s.asrun := rfl
@[simp] theorem State.setLane_cmd (x : Lane) : (s.setLane x).cmd = s.cmd := rfl
@[simp] theorem State.setLane_alert (x : Lane) : (s.setLane x).alert = s.alert := rfl
@[simp] theorem State.setLane_forming (x : Lane) : (s.setLane x).forming = s.forming := rfl
@[simp] theorem State.setLane_pending (x : Lane) : (s.setLane x).pending = s.pending := rfl
@[simp] theorem State.setLane_self : s.setLane s.lane = s := rfl
@[simp] theorem State.setLane_twice (x y : Lane) : (s.setLane x).setLane y = s.setLane y := rfl

/-! #### setTx -/

@[simp] theorem State.setTx_rx (x : Egress) : (s.setTx x).rx = s.rx := rfl
@[simp] theorem State.setTx_lane (x : Egress) : (s.setTx x).lane = s.lane := rfl
@[simp] theorem State.setTx_tx (x : Egress) : (s.setTx x).tx = x := rfl
@[simp] theorem State.setTx_clock (x : Egress) : (s.setTx x).clock = s.clock := rfl
@[simp] theorem State.setTx_cues (x : Egress) : (s.setTx x).cues = s.cues := rfl
@[simp] theorem State.setTx_memory (x : Egress) : (s.setTx x).memory = s.memory := rfl
@[simp] theorem State.setTx_store (x : Egress) : (s.setTx x).store = s.store := rfl
@[simp] theorem State.setTx_voices (x : Egress) : (s.setTx x).voices = s.voices := rfl
@[simp] theorem State.setTx_events (x : Egress) : (s.setTx x).events = s.events := rfl
@[simp] theorem State.setTx_reserve (x : Egress) : (s.setTx x).reserve = s.reserve := rfl
@[simp] theorem State.setTx_chans (x : Egress) : (s.setTx x).chans = s.chans := rfl
@[simp] theorem State.setTx_gpi (x : Egress) : (s.setTx x).gpi = s.gpi := rfl
@[simp] theorem State.setTx_gpo (x : Egress) : (s.setTx x).gpo = s.gpo := rfl
@[simp] theorem State.setTx_asrun (x : Egress) : (s.setTx x).asrun = s.asrun := rfl
@[simp] theorem State.setTx_cmd (x : Egress) : (s.setTx x).cmd = s.cmd := rfl
@[simp] theorem State.setTx_alert (x : Egress) : (s.setTx x).alert = s.alert := rfl
@[simp] theorem State.setTx_forming (x : Egress) : (s.setTx x).forming = s.forming := rfl
@[simp] theorem State.setTx_pending (x : Egress) : (s.setTx x).pending = s.pending := rfl
@[simp] theorem State.setTx_self : s.setTx s.tx = s := rfl
@[simp] theorem State.setTx_twice (x y : Egress) : (s.setTx x).setTx y = s.setTx y := rfl

/-! #### setClock -/

@[simp] theorem State.setClock_rx (x : AirClock) : (s.setClock x).rx = s.rx := rfl
@[simp] theorem State.setClock_lane (x : AirClock) : (s.setClock x).lane = s.lane := rfl
@[simp] theorem State.setClock_tx (x : AirClock) : (s.setClock x).tx = s.tx := rfl
@[simp] theorem State.setClock_clock (x : AirClock) : (s.setClock x).clock = x := rfl
@[simp] theorem State.setClock_cues (x : AirClock) : (s.setClock x).cues = s.cues := rfl
@[simp] theorem State.setClock_memory (x : AirClock) : (s.setClock x).memory = s.memory := rfl
@[simp] theorem State.setClock_store (x : AirClock) : (s.setClock x).store = s.store := rfl
@[simp] theorem State.setClock_voices (x : AirClock) : (s.setClock x).voices = s.voices := rfl
@[simp] theorem State.setClock_events (x : AirClock) : (s.setClock x).events = s.events := rfl
@[simp] theorem State.setClock_reserve (x : AirClock) : (s.setClock x).reserve = s.reserve := rfl
@[simp] theorem State.setClock_chans (x : AirClock) : (s.setClock x).chans = s.chans := rfl
@[simp] theorem State.setClock_gpi (x : AirClock) : (s.setClock x).gpi = s.gpi := rfl
@[simp] theorem State.setClock_gpo (x : AirClock) : (s.setClock x).gpo = s.gpo := rfl
@[simp] theorem State.setClock_asrun (x : AirClock) : (s.setClock x).asrun = s.asrun := rfl
@[simp] theorem State.setClock_cmd (x : AirClock) : (s.setClock x).cmd = s.cmd := rfl
@[simp] theorem State.setClock_alert (x : AirClock) : (s.setClock x).alert = s.alert := rfl
@[simp] theorem State.setClock_forming (x : AirClock) : (s.setClock x).forming = s.forming := rfl
@[simp] theorem State.setClock_pending (x : AirClock) : (s.setClock x).pending = s.pending := rfl
@[simp] theorem State.setClock_self : s.setClock s.clock = s := rfl
@[simp] theorem State.setClock_twice (x y : AirClock) :
    (s.setClock x).setClock y = s.setClock y := rfl

/-! #### setCues -/

@[simp] theorem State.setCues_rx (x : CueCounters) : (s.setCues x).rx = s.rx := rfl
@[simp] theorem State.setCues_lane (x : CueCounters) : (s.setCues x).lane = s.lane := rfl
@[simp] theorem State.setCues_tx (x : CueCounters) : (s.setCues x).tx = s.tx := rfl
@[simp] theorem State.setCues_clock (x : CueCounters) : (s.setCues x).clock = s.clock := rfl
@[simp] theorem State.setCues_cues (x : CueCounters) : (s.setCues x).cues = x := rfl
@[simp] theorem State.setCues_memory (x : CueCounters) : (s.setCues x).memory = s.memory := rfl
@[simp] theorem State.setCues_store (x : CueCounters) : (s.setCues x).store = s.store := rfl
@[simp] theorem State.setCues_voices (x : CueCounters) : (s.setCues x).voices = s.voices := rfl
@[simp] theorem State.setCues_events (x : CueCounters) : (s.setCues x).events = s.events := rfl
@[simp] theorem State.setCues_reserve (x : CueCounters) : (s.setCues x).reserve = s.reserve := rfl
@[simp] theorem State.setCues_chans (x : CueCounters) : (s.setCues x).chans = s.chans := rfl
@[simp] theorem State.setCues_gpi (x : CueCounters) : (s.setCues x).gpi = s.gpi := rfl
@[simp] theorem State.setCues_gpo (x : CueCounters) : (s.setCues x).gpo = s.gpo := rfl
@[simp] theorem State.setCues_asrun (x : CueCounters) : (s.setCues x).asrun = s.asrun := rfl
@[simp] theorem State.setCues_cmd (x : CueCounters) : (s.setCues x).cmd = s.cmd := rfl
@[simp] theorem State.setCues_alert (x : CueCounters) : (s.setCues x).alert = s.alert := rfl
@[simp] theorem State.setCues_forming (x : CueCounters) : (s.setCues x).forming = s.forming := rfl
@[simp] theorem State.setCues_pending (x : CueCounters) : (s.setCues x).pending = s.pending := rfl
@[simp] theorem State.setCues_self : s.setCues s.cues = s := rfl
@[simp] theorem State.setCues_twice (x y : CueCounters) :
    (s.setCues x).setCues y = s.setCues y := rfl

/-! #### setMemory -/

@[simp] theorem State.setMemory_rx (x : List (Nat × Sample)) : (s.setMemory x).rx = s.rx := rfl
@[simp] theorem State.setMemory_lane (x : List (Nat × Sample)) :
    (s.setMemory x).lane = s.lane := rfl
@[simp] theorem State.setMemory_tx (x : List (Nat × Sample)) : (s.setMemory x).tx = s.tx := rfl
@[simp] theorem State.setMemory_clock (x : List (Nat × Sample)) :
    (s.setMemory x).clock = s.clock := rfl
@[simp] theorem State.setMemory_cues (x : List (Nat × Sample)) :
    (s.setMemory x).cues = s.cues := rfl
@[simp] theorem State.setMemory_memory (x : List (Nat × Sample)) : (s.setMemory x).memory = x := rfl
@[simp] theorem State.setMemory_store (x : List (Nat × Sample)) :
    (s.setMemory x).store = s.store := rfl
@[simp] theorem State.setMemory_voices (x : List (Nat × Sample)) :
    (s.setMemory x).voices = s.voices := rfl
@[simp] theorem State.setMemory_events (x : List (Nat × Sample)) :
    (s.setMemory x).events = s.events := rfl
@[simp] theorem State.setMemory_reserve (x : List (Nat × Sample)) :
    (s.setMemory x).reserve = s.reserve := rfl
@[simp] theorem State.setMemory_chans (x : List (Nat × Sample)) :
    (s.setMemory x).chans = s.chans := rfl
@[simp] theorem State.setMemory_gpi (x : List (Nat × Sample)) : (s.setMemory x).gpi = s.gpi := rfl
@[simp] theorem State.setMemory_gpo (x : List (Nat × Sample)) : (s.setMemory x).gpo = s.gpo := rfl
@[simp] theorem State.setMemory_asrun (x : List (Nat × Sample)) :
    (s.setMemory x).asrun = s.asrun := rfl
@[simp] theorem State.setMemory_cmd (x : List (Nat × Sample)) : (s.setMemory x).cmd = s.cmd := rfl
@[simp] theorem State.setMemory_alert (x : List (Nat × Sample)) :
    (s.setMemory x).alert = s.alert := rfl
@[simp] theorem State.setMemory_forming (x : List (Nat × Sample)) :
    (s.setMemory x).forming = s.forming := rfl
@[simp] theorem State.setMemory_pending (x : List (Nat × Sample)) :
    (s.setMemory x).pending = s.pending := rfl
@[simp] theorem State.setMemory_self : s.setMemory s.memory = s := rfl
@[simp] theorem State.setMemory_twice (x y : List (Nat × Sample)) :
    (s.setMemory x).setMemory y = s.setMemory y := rfl

/-! #### setStore -/

@[simp] theorem State.setStore_rx (x : Store) : (s.setStore x).rx = s.rx := rfl
@[simp] theorem State.setStore_lane (x : Store) : (s.setStore x).lane = s.lane := rfl
@[simp] theorem State.setStore_tx (x : Store) : (s.setStore x).tx = s.tx := rfl
@[simp] theorem State.setStore_clock (x : Store) : (s.setStore x).clock = s.clock := rfl
@[simp] theorem State.setStore_cues (x : Store) : (s.setStore x).cues = s.cues := rfl
@[simp] theorem State.setStore_memory (x : Store) : (s.setStore x).memory = s.memory := rfl
@[simp] theorem State.setStore_store (x : Store) : (s.setStore x).store = x := rfl
@[simp] theorem State.setStore_voices (x : Store) : (s.setStore x).voices = s.voices := rfl
@[simp] theorem State.setStore_events (x : Store) : (s.setStore x).events = s.events := rfl
@[simp] theorem State.setStore_reserve (x : Store) : (s.setStore x).reserve = s.reserve := rfl
@[simp] theorem State.setStore_chans (x : Store) : (s.setStore x).chans = s.chans := rfl
@[simp] theorem State.setStore_gpi (x : Store) : (s.setStore x).gpi = s.gpi := rfl
@[simp] theorem State.setStore_gpo (x : Store) : (s.setStore x).gpo = s.gpo := rfl
@[simp] theorem State.setStore_asrun (x : Store) : (s.setStore x).asrun = s.asrun := rfl
@[simp] theorem State.setStore_cmd (x : Store) : (s.setStore x).cmd = s.cmd := rfl
@[simp] theorem State.setStore_alert (x : Store) : (s.setStore x).alert = s.alert := rfl
@[simp] theorem State.setStore_forming (x : Store) : (s.setStore x).forming = s.forming := rfl
@[simp] theorem State.setStore_pending (x : Store) : (s.setStore x).pending = s.pending := rfl
@[simp] theorem State.setStore_self : s.setStore s.store = s := rfl
@[simp] theorem State.setStore_twice (x y : Store) : (s.setStore x).setStore y = s.setStore y := rfl

/-! #### setVoices -/

@[simp] theorem State.setVoices_rx (x : Vector Voice 16) : (s.setVoices x).rx = s.rx := rfl
@[simp] theorem State.setVoices_lane (x : Vector Voice 16) : (s.setVoices x).lane = s.lane := rfl
@[simp] theorem State.setVoices_tx (x : Vector Voice 16) : (s.setVoices x).tx = s.tx := rfl
@[simp] theorem State.setVoices_clock (x : Vector Voice 16) : (s.setVoices x).clock = s.clock := rfl
@[simp] theorem State.setVoices_cues (x : Vector Voice 16) : (s.setVoices x).cues = s.cues := rfl
@[simp] theorem State.setVoices_memory (x : Vector Voice 16) :
    (s.setVoices x).memory = s.memory := rfl
@[simp] theorem State.setVoices_store (x : Vector Voice 16) : (s.setVoices x).store = s.store := rfl
@[simp] theorem State.setVoices_voices (x : Vector Voice 16) : (s.setVoices x).voices = x := rfl
@[simp] theorem State.setVoices_events (x : Vector Voice 16) :
    (s.setVoices x).events = s.events := rfl
@[simp] theorem State.setVoices_reserve (x : Vector Voice 16) :
    (s.setVoices x).reserve = s.reserve := rfl
@[simp] theorem State.setVoices_chans (x : Vector Voice 16) : (s.setVoices x).chans = s.chans := rfl
@[simp] theorem State.setVoices_gpi (x : Vector Voice 16) : (s.setVoices x).gpi = s.gpi := rfl
@[simp] theorem State.setVoices_gpo (x : Vector Voice 16) : (s.setVoices x).gpo = s.gpo := rfl
@[simp] theorem State.setVoices_asrun (x : Vector Voice 16) : (s.setVoices x).asrun = s.asrun := rfl
@[simp] theorem State.setVoices_cmd (x : Vector Voice 16) : (s.setVoices x).cmd = s.cmd := rfl
@[simp] theorem State.setVoices_alert (x : Vector Voice 16) : (s.setVoices x).alert = s.alert := rfl
@[simp] theorem State.setVoices_forming (x : Vector Voice 16) :
    (s.setVoices x).forming = s.forming := rfl
@[simp] theorem State.setVoices_pending (x : Vector Voice 16) :
    (s.setVoices x).pending = s.pending := rfl
@[simp] theorem State.setVoices_self : s.setVoices s.voices = s := rfl
@[simp] theorem State.setVoices_twice (x y : Vector Voice 16) :
    (s.setVoices x).setVoices y = s.setVoices y := rfl

/-! #### setEvents -/

@[simp] theorem State.setEvents_rx (x : List VoiceEvent) : (s.setEvents x).rx = s.rx := rfl
@[simp] theorem State.setEvents_lane (x : List VoiceEvent) : (s.setEvents x).lane = s.lane := rfl
@[simp] theorem State.setEvents_tx (x : List VoiceEvent) : (s.setEvents x).tx = s.tx := rfl
@[simp] theorem State.setEvents_clock (x : List VoiceEvent) : (s.setEvents x).clock = s.clock := rfl
@[simp] theorem State.setEvents_cues (x : List VoiceEvent) : (s.setEvents x).cues = s.cues := rfl
@[simp] theorem State.setEvents_memory (x : List VoiceEvent) :
    (s.setEvents x).memory = s.memory := rfl
@[simp] theorem State.setEvents_store (x : List VoiceEvent) : (s.setEvents x).store = s.store := rfl
@[simp] theorem State.setEvents_voices (x : List VoiceEvent) :
    (s.setEvents x).voices = s.voices := rfl
@[simp] theorem State.setEvents_events (x : List VoiceEvent) : (s.setEvents x).events = x := rfl
@[simp] theorem State.setEvents_reserve (x : List VoiceEvent) :
    (s.setEvents x).reserve = s.reserve := rfl
@[simp] theorem State.setEvents_chans (x : List VoiceEvent) : (s.setEvents x).chans = s.chans := rfl
@[simp] theorem State.setEvents_gpi (x : List VoiceEvent) : (s.setEvents x).gpi = s.gpi := rfl
@[simp] theorem State.setEvents_gpo (x : List VoiceEvent) : (s.setEvents x).gpo = s.gpo := rfl
@[simp] theorem State.setEvents_asrun (x : List VoiceEvent) : (s.setEvents x).asrun = s.asrun := rfl
@[simp] theorem State.setEvents_cmd (x : List VoiceEvent) : (s.setEvents x).cmd = s.cmd := rfl
@[simp] theorem State.setEvents_alert (x : List VoiceEvent) : (s.setEvents x).alert = s.alert := rfl
@[simp] theorem State.setEvents_forming (x : List VoiceEvent) :
    (s.setEvents x).forming = s.forming := rfl
@[simp] theorem State.setEvents_pending (x : List VoiceEvent) :
    (s.setEvents x).pending = s.pending := rfl
@[simp] theorem State.setEvents_self : s.setEvents s.events = s := rfl
@[simp] theorem State.setEvents_twice (x y : List VoiceEvent) :
    (s.setEvents x).setEvents y = s.setEvents y := rfl

/-! #### setReserve -/

@[simp] theorem State.setReserve_rx (x : Nat) : (s.setReserve x).rx = s.rx := rfl
@[simp] theorem State.setReserve_lane (x : Nat) : (s.setReserve x).lane = s.lane := rfl
@[simp] theorem State.setReserve_tx (x : Nat) : (s.setReserve x).tx = s.tx := rfl
@[simp] theorem State.setReserve_clock (x : Nat) : (s.setReserve x).clock = s.clock := rfl
@[simp] theorem State.setReserve_cues (x : Nat) : (s.setReserve x).cues = s.cues := rfl
@[simp] theorem State.setReserve_memory (x : Nat) : (s.setReserve x).memory = s.memory := rfl
@[simp] theorem State.setReserve_store (x : Nat) : (s.setReserve x).store = s.store := rfl
@[simp] theorem State.setReserve_voices (x : Nat) : (s.setReserve x).voices = s.voices := rfl
@[simp] theorem State.setReserve_events (x : Nat) : (s.setReserve x).events = s.events := rfl
@[simp] theorem State.setReserve_reserve (x : Nat) : (s.setReserve x).reserve = x := rfl
@[simp] theorem State.setReserve_chans (x : Nat) : (s.setReserve x).chans = s.chans := rfl
@[simp] theorem State.setReserve_gpi (x : Nat) : (s.setReserve x).gpi = s.gpi := rfl
@[simp] theorem State.setReserve_gpo (x : Nat) : (s.setReserve x).gpo = s.gpo := rfl
@[simp] theorem State.setReserve_asrun (x : Nat) : (s.setReserve x).asrun = s.asrun := rfl
@[simp] theorem State.setReserve_cmd (x : Nat) : (s.setReserve x).cmd = s.cmd := rfl
@[simp] theorem State.setReserve_alert (x : Nat) : (s.setReserve x).alert = s.alert := rfl
@[simp] theorem State.setReserve_forming (x : Nat) : (s.setReserve x).forming = s.forming := rfl
@[simp] theorem State.setReserve_pending (x : Nat) : (s.setReserve x).pending = s.pending := rfl
@[simp] theorem State.setReserve_self : s.setReserve s.reserve = s := rfl
@[simp] theorem State.setReserve_twice (x y : Nat) :
    (s.setReserve x).setReserve y = s.setReserve y := rfl

/-! #### setChans -/

@[simp] theorem State.setChans_rx (x : Vector Channel 4) : (s.setChans x).rx = s.rx := rfl
@[simp] theorem State.setChans_lane (x : Vector Channel 4) : (s.setChans x).lane = s.lane := rfl
@[simp] theorem State.setChans_tx (x : Vector Channel 4) : (s.setChans x).tx = s.tx := rfl
@[simp] theorem State.setChans_clock (x : Vector Channel 4) : (s.setChans x).clock = s.clock := rfl
@[simp] theorem State.setChans_cues (x : Vector Channel 4) : (s.setChans x).cues = s.cues := rfl
@[simp] theorem State.setChans_memory (x : Vector Channel 4) :
    (s.setChans x).memory = s.memory := rfl
@[simp] theorem State.setChans_store (x : Vector Channel 4) : (s.setChans x).store = s.store := rfl
@[simp] theorem State.setChans_voices (x : Vector Channel 4) :
    (s.setChans x).voices = s.voices := rfl
@[simp] theorem State.setChans_events (x : Vector Channel 4) :
    (s.setChans x).events = s.events := rfl
@[simp] theorem State.setChans_reserve (x : Vector Channel 4) :
    (s.setChans x).reserve = s.reserve := rfl
@[simp] theorem State.setChans_chans (x : Vector Channel 4) : (s.setChans x).chans = x := rfl
@[simp] theorem State.setChans_gpi (x : Vector Channel 4) : (s.setChans x).gpi = s.gpi := rfl
@[simp] theorem State.setChans_gpo (x : Vector Channel 4) : (s.setChans x).gpo = s.gpo := rfl
@[simp] theorem State.setChans_asrun (x : Vector Channel 4) : (s.setChans x).asrun = s.asrun := rfl
@[simp] theorem State.setChans_cmd (x : Vector Channel 4) : (s.setChans x).cmd = s.cmd := rfl
@[simp] theorem State.setChans_alert (x : Vector Channel 4) : (s.setChans x).alert = s.alert := rfl
@[simp] theorem State.setChans_forming (x : Vector Channel 4) :
    (s.setChans x).forming = s.forming := rfl
@[simp] theorem State.setChans_pending (x : Vector Channel 4) :
    (s.setChans x).pending = s.pending := rfl
@[simp] theorem State.setChans_self : s.setChans s.chans = s := rfl
@[simp] theorem State.setChans_twice (x y : Vector Channel 4) :
    (s.setChans x).setChans y = s.setChans y := rfl

/-! #### setGpi -/

@[simp] theorem State.setGpi_rx (x : Vector GpiLine 8) : (s.setGpi x).rx = s.rx := rfl
@[simp] theorem State.setGpi_lane (x : Vector GpiLine 8) : (s.setGpi x).lane = s.lane := rfl
@[simp] theorem State.setGpi_tx (x : Vector GpiLine 8) : (s.setGpi x).tx = s.tx := rfl
@[simp] theorem State.setGpi_clock (x : Vector GpiLine 8) : (s.setGpi x).clock = s.clock := rfl
@[simp] theorem State.setGpi_cues (x : Vector GpiLine 8) : (s.setGpi x).cues = s.cues := rfl
@[simp] theorem State.setGpi_memory (x : Vector GpiLine 8) : (s.setGpi x).memory = s.memory := rfl
@[simp] theorem State.setGpi_store (x : Vector GpiLine 8) : (s.setGpi x).store = s.store := rfl
@[simp] theorem State.setGpi_voices (x : Vector GpiLine 8) : (s.setGpi x).voices = s.voices := rfl
@[simp] theorem State.setGpi_events (x : Vector GpiLine 8) : (s.setGpi x).events = s.events := rfl
@[simp] theorem State.setGpi_reserve (x : Vector GpiLine 8) :
    (s.setGpi x).reserve = s.reserve := rfl
@[simp] theorem State.setGpi_chans (x : Vector GpiLine 8) : (s.setGpi x).chans = s.chans := rfl
@[simp] theorem State.setGpi_gpi (x : Vector GpiLine 8) : (s.setGpi x).gpi = x := rfl
@[simp] theorem State.setGpi_gpo (x : Vector GpiLine 8) : (s.setGpi x).gpo = s.gpo := rfl
@[simp] theorem State.setGpi_asrun (x : Vector GpiLine 8) : (s.setGpi x).asrun = s.asrun := rfl
@[simp] theorem State.setGpi_cmd (x : Vector GpiLine 8) : (s.setGpi x).cmd = s.cmd := rfl
@[simp] theorem State.setGpi_alert (x : Vector GpiLine 8) : (s.setGpi x).alert = s.alert := rfl
@[simp] theorem State.setGpi_forming (x : Vector GpiLine 8) :
    (s.setGpi x).forming = s.forming := rfl
@[simp] theorem State.setGpi_pending (x : Vector GpiLine 8) :
    (s.setGpi x).pending = s.pending := rfl
@[simp] theorem State.setGpi_self : s.setGpi s.gpi = s := rfl
@[simp] theorem State.setGpi_twice (x y : Vector GpiLine 8) :
    (s.setGpi x).setGpi y = s.setGpi y := rfl

/-! #### setGpo -/

@[simp] theorem State.setGpo_rx (x : Vector GpoFunction 4) : (s.setGpo x).rx = s.rx := rfl
@[simp] theorem State.setGpo_lane (x : Vector GpoFunction 4) : (s.setGpo x).lane = s.lane := rfl
@[simp] theorem State.setGpo_tx (x : Vector GpoFunction 4) : (s.setGpo x).tx = s.tx := rfl
@[simp] theorem State.setGpo_clock (x : Vector GpoFunction 4) : (s.setGpo x).clock = s.clock := rfl
@[simp] theorem State.setGpo_cues (x : Vector GpoFunction 4) : (s.setGpo x).cues = s.cues := rfl
@[simp] theorem State.setGpo_memory (x : Vector GpoFunction 4) :
    (s.setGpo x).memory = s.memory := rfl
@[simp] theorem State.setGpo_store (x : Vector GpoFunction 4) : (s.setGpo x).store = s.store := rfl
@[simp] theorem State.setGpo_voices (x : Vector GpoFunction 4) :
    (s.setGpo x).voices = s.voices := rfl
@[simp] theorem State.setGpo_events (x : Vector GpoFunction 4) :
    (s.setGpo x).events = s.events := rfl
@[simp] theorem State.setGpo_reserve (x : Vector GpoFunction 4) :
    (s.setGpo x).reserve = s.reserve := rfl
@[simp] theorem State.setGpo_chans (x : Vector GpoFunction 4) : (s.setGpo x).chans = s.chans := rfl
@[simp] theorem State.setGpo_gpi (x : Vector GpoFunction 4) : (s.setGpo x).gpi = s.gpi := rfl
@[simp] theorem State.setGpo_gpo (x : Vector GpoFunction 4) : (s.setGpo x).gpo = x := rfl
@[simp] theorem State.setGpo_asrun (x : Vector GpoFunction 4) : (s.setGpo x).asrun = s.asrun := rfl
@[simp] theorem State.setGpo_cmd (x : Vector GpoFunction 4) : (s.setGpo x).cmd = s.cmd := rfl
@[simp] theorem State.setGpo_alert (x : Vector GpoFunction 4) : (s.setGpo x).alert = s.alert := rfl
@[simp] theorem State.setGpo_forming (x : Vector GpoFunction 4) :
    (s.setGpo x).forming = s.forming := rfl
@[simp] theorem State.setGpo_pending (x : Vector GpoFunction 4) :
    (s.setGpo x).pending = s.pending := rfl
@[simp] theorem State.setGpo_self : s.setGpo s.gpo = s := rfl
@[simp] theorem State.setGpo_twice (x y : Vector GpoFunction 4) :
    (s.setGpo x).setGpo y = s.setGpo y := rfl

/-! #### setAsrun -/

@[simp] theorem State.setAsrun_rx (x : AsRunQueue) : (s.setAsrun x).rx = s.rx := rfl
@[simp] theorem State.setAsrun_lane (x : AsRunQueue) : (s.setAsrun x).lane = s.lane := rfl
@[simp] theorem State.setAsrun_tx (x : AsRunQueue) : (s.setAsrun x).tx = s.tx := rfl
@[simp] theorem State.setAsrun_clock (x : AsRunQueue) : (s.setAsrun x).clock = s.clock := rfl
@[simp] theorem State.setAsrun_cues (x : AsRunQueue) : (s.setAsrun x).cues = s.cues := rfl
@[simp] theorem State.setAsrun_memory (x : AsRunQueue) : (s.setAsrun x).memory = s.memory := rfl
@[simp] theorem State.setAsrun_store (x : AsRunQueue) : (s.setAsrun x).store = s.store := rfl
@[simp] theorem State.setAsrun_voices (x : AsRunQueue) : (s.setAsrun x).voices = s.voices := rfl
@[simp] theorem State.setAsrun_events (x : AsRunQueue) : (s.setAsrun x).events = s.events := rfl
@[simp] theorem State.setAsrun_reserve (x : AsRunQueue) : (s.setAsrun x).reserve = s.reserve := rfl
@[simp] theorem State.setAsrun_chans (x : AsRunQueue) : (s.setAsrun x).chans = s.chans := rfl
@[simp] theorem State.setAsrun_gpi (x : AsRunQueue) : (s.setAsrun x).gpi = s.gpi := rfl
@[simp] theorem State.setAsrun_gpo (x : AsRunQueue) : (s.setAsrun x).gpo = s.gpo := rfl
@[simp] theorem State.setAsrun_asrun (x : AsRunQueue) : (s.setAsrun x).asrun = x := rfl
@[simp] theorem State.setAsrun_cmd (x : AsRunQueue) : (s.setAsrun x).cmd = s.cmd := rfl
@[simp] theorem State.setAsrun_alert (x : AsRunQueue) : (s.setAsrun x).alert = s.alert := rfl
@[simp] theorem State.setAsrun_forming (x : AsRunQueue) : (s.setAsrun x).forming = s.forming := rfl
@[simp] theorem State.setAsrun_pending (x : AsRunQueue) : (s.setAsrun x).pending = s.pending := rfl
@[simp] theorem State.setAsrun_self : s.setAsrun s.asrun = s := rfl
@[simp] theorem State.setAsrun_twice (x y : AsRunQueue) :
    (s.setAsrun x).setAsrun y = s.setAsrun y := rfl

/-! #### setCmd -/

@[simp] theorem State.setCmd_rx (x : CommandUnit) : (s.setCmd x).rx = s.rx := rfl
@[simp] theorem State.setCmd_lane (x : CommandUnit) : (s.setCmd x).lane = s.lane := rfl
@[simp] theorem State.setCmd_tx (x : CommandUnit) : (s.setCmd x).tx = s.tx := rfl
@[simp] theorem State.setCmd_clock (x : CommandUnit) : (s.setCmd x).clock = s.clock := rfl
@[simp] theorem State.setCmd_cues (x : CommandUnit) : (s.setCmd x).cues = s.cues := rfl
@[simp] theorem State.setCmd_memory (x : CommandUnit) : (s.setCmd x).memory = s.memory := rfl
@[simp] theorem State.setCmd_store (x : CommandUnit) : (s.setCmd x).store = s.store := rfl
@[simp] theorem State.setCmd_voices (x : CommandUnit) : (s.setCmd x).voices = s.voices := rfl
@[simp] theorem State.setCmd_events (x : CommandUnit) : (s.setCmd x).events = s.events := rfl
@[simp] theorem State.setCmd_reserve (x : CommandUnit) : (s.setCmd x).reserve = s.reserve := rfl
@[simp] theorem State.setCmd_chans (x : CommandUnit) : (s.setCmd x).chans = s.chans := rfl
@[simp] theorem State.setCmd_gpi (x : CommandUnit) : (s.setCmd x).gpi = s.gpi := rfl
@[simp] theorem State.setCmd_gpo (x : CommandUnit) : (s.setCmd x).gpo = s.gpo := rfl
@[simp] theorem State.setCmd_asrun (x : CommandUnit) : (s.setCmd x).asrun = s.asrun := rfl
@[simp] theorem State.setCmd_cmd (x : CommandUnit) : (s.setCmd x).cmd = x := rfl
@[simp] theorem State.setCmd_alert (x : CommandUnit) : (s.setCmd x).alert = s.alert := rfl
@[simp] theorem State.setCmd_forming (x : CommandUnit) : (s.setCmd x).forming = s.forming := rfl
@[simp] theorem State.setCmd_pending (x : CommandUnit) : (s.setCmd x).pending = s.pending := rfl
@[simp] theorem State.setCmd_self : s.setCmd s.cmd = s := rfl
@[simp] theorem State.setCmd_twice (x y : CommandUnit) : (s.setCmd x).setCmd y = s.setCmd y := rfl

/-! #### setAlert -/

@[simp] theorem State.setAlert_rx (x : AlertUnit) : (s.setAlert x).rx = s.rx := rfl
@[simp] theorem State.setAlert_lane (x : AlertUnit) : (s.setAlert x).lane = s.lane := rfl
@[simp] theorem State.setAlert_tx (x : AlertUnit) : (s.setAlert x).tx = s.tx := rfl
@[simp] theorem State.setAlert_clock (x : AlertUnit) : (s.setAlert x).clock = s.clock := rfl
@[simp] theorem State.setAlert_cues (x : AlertUnit) : (s.setAlert x).cues = s.cues := rfl
@[simp] theorem State.setAlert_memory (x : AlertUnit) : (s.setAlert x).memory = s.memory := rfl
@[simp] theorem State.setAlert_store (x : AlertUnit) : (s.setAlert x).store = s.store := rfl
@[simp] theorem State.setAlert_voices (x : AlertUnit) : (s.setAlert x).voices = s.voices := rfl
@[simp] theorem State.setAlert_events (x : AlertUnit) : (s.setAlert x).events = s.events := rfl
@[simp] theorem State.setAlert_reserve (x : AlertUnit) : (s.setAlert x).reserve = s.reserve := rfl
@[simp] theorem State.setAlert_chans (x : AlertUnit) : (s.setAlert x).chans = s.chans := rfl
@[simp] theorem State.setAlert_gpi (x : AlertUnit) : (s.setAlert x).gpi = s.gpi := rfl
@[simp] theorem State.setAlert_gpo (x : AlertUnit) : (s.setAlert x).gpo = s.gpo := rfl
@[simp] theorem State.setAlert_asrun (x : AlertUnit) : (s.setAlert x).asrun = s.asrun := rfl
@[simp] theorem State.setAlert_cmd (x : AlertUnit) : (s.setAlert x).cmd = s.cmd := rfl
@[simp] theorem State.setAlert_alert (x : AlertUnit) : (s.setAlert x).alert = x := rfl
@[simp] theorem State.setAlert_forming (x : AlertUnit) : (s.setAlert x).forming = s.forming := rfl
@[simp] theorem State.setAlert_pending (x : AlertUnit) : (s.setAlert x).pending = s.pending := rfl
@[simp] theorem State.setAlert_self : s.setAlert s.alert = s := rfl
@[simp] theorem State.setAlert_twice (x y : AlertUnit) :
    (s.setAlert x).setAlert y = s.setAlert y := rfl

/-! #### setForming -/

@[simp] theorem State.setForming_rx (x : Forming) : (s.setForming x).rx = s.rx := rfl
@[simp] theorem State.setForming_lane (x : Forming) : (s.setForming x).lane = s.lane := rfl
@[simp] theorem State.setForming_tx (x : Forming) : (s.setForming x).tx = s.tx := rfl
@[simp] theorem State.setForming_clock (x : Forming) : (s.setForming x).clock = s.clock := rfl
@[simp] theorem State.setForming_cues (x : Forming) : (s.setForming x).cues = s.cues := rfl
@[simp] theorem State.setForming_memory (x : Forming) : (s.setForming x).memory = s.memory := rfl
@[simp] theorem State.setForming_store (x : Forming) : (s.setForming x).store = s.store := rfl
@[simp] theorem State.setForming_voices (x : Forming) : (s.setForming x).voices = s.voices := rfl
@[simp] theorem State.setForming_events (x : Forming) : (s.setForming x).events = s.events := rfl
@[simp] theorem State.setForming_reserve (x : Forming) : (s.setForming x).reserve = s.reserve := rfl
@[simp] theorem State.setForming_chans (x : Forming) : (s.setForming x).chans = s.chans := rfl
@[simp] theorem State.setForming_gpi (x : Forming) : (s.setForming x).gpi = s.gpi := rfl
@[simp] theorem State.setForming_gpo (x : Forming) : (s.setForming x).gpo = s.gpo := rfl
@[simp] theorem State.setForming_asrun (x : Forming) : (s.setForming x).asrun = s.asrun := rfl
@[simp] theorem State.setForming_cmd (x : Forming) : (s.setForming x).cmd = s.cmd := rfl
@[simp] theorem State.setForming_alert (x : Forming) : (s.setForming x).alert = s.alert := rfl
@[simp] theorem State.setForming_forming (x : Forming) : (s.setForming x).forming = x := rfl
@[simp] theorem State.setForming_pending (x : Forming) : (s.setForming x).pending = s.pending := rfl
@[simp] theorem State.setForming_self : s.setForming s.forming = s := rfl
@[simp] theorem State.setForming_twice (x y : Forming) :
    (s.setForming x).setForming y = s.setForming y := rfl

/-! #### setPending -/

@[simp] theorem State.setPending_rx (x : List Instr) : (s.setPending x).rx = s.rx := rfl
@[simp] theorem State.setPending_lane (x : List Instr) : (s.setPending x).lane = s.lane := rfl
@[simp] theorem State.setPending_tx (x : List Instr) : (s.setPending x).tx = s.tx := rfl
@[simp] theorem State.setPending_clock (x : List Instr) : (s.setPending x).clock = s.clock := rfl
@[simp] theorem State.setPending_cues (x : List Instr) : (s.setPending x).cues = s.cues := rfl
@[simp] theorem State.setPending_memory (x : List Instr) : (s.setPending x).memory = s.memory := rfl
@[simp] theorem State.setPending_store (x : List Instr) : (s.setPending x).store = s.store := rfl
@[simp] theorem State.setPending_voices (x : List Instr) : (s.setPending x).voices = s.voices := rfl
@[simp] theorem State.setPending_events (x : List Instr) : (s.setPending x).events = s.events := rfl
@[simp] theorem State.setPending_reserve (x : List Instr) :
    (s.setPending x).reserve = s.reserve := rfl
@[simp] theorem State.setPending_chans (x : List Instr) : (s.setPending x).chans = s.chans := rfl
@[simp] theorem State.setPending_gpi (x : List Instr) : (s.setPending x).gpi = s.gpi := rfl
@[simp] theorem State.setPending_gpo (x : List Instr) : (s.setPending x).gpo = s.gpo := rfl
@[simp] theorem State.setPending_asrun (x : List Instr) : (s.setPending x).asrun = s.asrun := rfl
@[simp] theorem State.setPending_cmd (x : List Instr) : (s.setPending x).cmd = s.cmd := rfl
@[simp] theorem State.setPending_alert (x : List Instr) : (s.setPending x).alert = s.alert := rfl
@[simp] theorem State.setPending_forming (x : List Instr) :
    (s.setPending x).forming = s.forming := rfl
@[simp] theorem State.setPending_pending (x : List Instr) : (s.setPending x).pending = x := rfl
@[simp] theorem State.setPending_self : s.setPending s.pending = s := rfl
@[simp] theorem State.setPending_twice (x y : List Instr) :
    (s.setPending x).setPending y = s.setPending y := rfl

/-! #### Channels, voices, contact lines -/

@[simp] theorem State.ch_setCh_same (c : Fin 4) (x : Channel) : (s.setCh c x).ch c = x := by
  simp [State.ch, State.setCh]

theorem State.ch_setCh_other (c d : Fin 4) (x : Channel) (h : d ≠ c) :
    (s.setCh c x).ch d = s.ch d := by
  have : c.val ≠ d.val := fun e => h (Fin.ext e.symm)
  simp [State.ch, State.setCh, Vector.getElem_set_ne, this]

theorem State.ch_setCh (c d : Fin 4) (x : Channel) :
    (s.setCh c x).ch d = if d = c then x else s.ch d := by
  split
  · next h => subst h; simp
  · next h => exact s.ch_setCh_other c d x h

@[simp] theorem State.setCh_rx (c : Fin 4) (x : Channel) : (s.setCh c x).rx = s.rx := rfl
@[simp] theorem State.setCh_lane (c : Fin 4) (x : Channel) : (s.setCh c x).lane = s.lane := rfl
@[simp] theorem State.setCh_tx (c : Fin 4) (x : Channel) : (s.setCh c x).tx = s.tx := rfl
@[simp] theorem State.setCh_clock (c : Fin 4) (x : Channel) : (s.setCh c x).clock = s.clock := rfl
@[simp] theorem State.setCh_cues (c : Fin 4) (x : Channel) : (s.setCh c x).cues = s.cues := rfl
@[simp] theorem State.setCh_memory (c : Fin 4) (x : Channel) :
    (s.setCh c x).memory = s.memory := rfl
@[simp] theorem State.setCh_store (c : Fin 4) (x : Channel) : (s.setCh c x).store = s.store := rfl
@[simp] theorem State.setCh_voices (c : Fin 4) (x : Channel) :
    (s.setCh c x).voices = s.voices := rfl
@[simp] theorem State.setCh_events (c : Fin 4) (x : Channel) :
    (s.setCh c x).events = s.events := rfl
@[simp] theorem State.setCh_reserve (c : Fin 4) (x : Channel) :
    (s.setCh c x).reserve = s.reserve := rfl
@[simp] theorem State.setCh_gpi (c : Fin 4) (x : Channel) : (s.setCh c x).gpi = s.gpi := rfl
@[simp] theorem State.setCh_gpo (c : Fin 4) (x : Channel) : (s.setCh c x).gpo = s.gpo := rfl
@[simp] theorem State.setCh_asrun (c : Fin 4) (x : Channel) : (s.setCh c x).asrun = s.asrun := rfl
@[simp] theorem State.setCh_cmd (c : Fin 4) (x : Channel) : (s.setCh c x).cmd = s.cmd := rfl
@[simp] theorem State.setCh_alert (c : Fin 4) (x : Channel) : (s.setCh c x).alert = s.alert := rfl
@[simp] theorem State.setCh_forming (c : Fin 4) (x : Channel) :
    (s.setCh c x).forming = s.forming := rfl
@[simp] theorem State.setCh_pending (c : Fin 4) (x : Channel) :
    (s.setCh c x).pending = s.pending := rfl

@[simp] theorem State.setRx_ch (y : Receiver) (c : Fin 4) : (s.setRx y).ch c = s.ch c := rfl
@[simp] theorem State.setLane_ch (y : Lane) (c : Fin 4) : (s.setLane y).ch c = s.ch c := rfl
@[simp] theorem State.setTx_ch (y : Egress) (c : Fin 4) : (s.setTx y).ch c = s.ch c := rfl
@[simp] theorem State.setClock_ch (y : AirClock) (c : Fin 4) : (s.setClock y).ch c = s.ch c := rfl
@[simp] theorem State.setCues_ch (y : CueCounters) (c : Fin 4) : (s.setCues y).ch c = s.ch c := rfl
@[simp] theorem State.setMemory_ch (y : List (Nat × Sample)) (c : Fin 4) :
    (s.setMemory y).ch c = s.ch c := rfl
@[simp] theorem State.setStore_ch (y : Store) (c : Fin 4) : (s.setStore y).ch c = s.ch c := rfl
@[simp] theorem State.setVoices_ch (y : Vector Voice 16) (c : Fin 4) :
    (s.setVoices y).ch c = s.ch c := rfl
@[simp] theorem State.setEvents_ch (y : List VoiceEvent) (c : Fin 4) :
    (s.setEvents y).ch c = s.ch c := rfl
@[simp] theorem State.setReserve_ch (y : Nat) (c : Fin 4) : (s.setReserve y).ch c = s.ch c := rfl
@[simp] theorem State.setGpi_ch (y : Vector GpiLine 8) (c : Fin 4) :
    (s.setGpi y).ch c = s.ch c := rfl
@[simp] theorem State.setGpo_ch (y : Vector GpoFunction 4) (c : Fin 4) :
    (s.setGpo y).ch c = s.ch c := rfl
@[simp] theorem State.setAsrun_ch (y : AsRunQueue) (c : Fin 4) : (s.setAsrun y).ch c = s.ch c := rfl
@[simp] theorem State.setCmd_ch (y : CommandUnit) (c : Fin 4) : (s.setCmd y).ch c = s.ch c := rfl
@[simp] theorem State.setAlert_ch (y : AlertUnit) (c : Fin 4) : (s.setAlert y).ch c = s.ch c := rfl
@[simp] theorem State.setForming_ch (y : Forming) (c : Fin 4) :
    (s.setForming y).ch c = s.ch c := rfl
@[simp] theorem State.setPending_ch (y : List Instr) (c : Fin 4) :
    (s.setPending y).ch c = s.ch c := rfl

@[simp] theorem State.voice_setVoice_same (c : Fin 16) (x : Voice) :
    (s.setVoice c x).voice c = x := by
  simp [State.voice, State.setVoice]

theorem State.voice_setVoice_other (c d : Fin 16) (x : Voice) (h : d ≠ c) :
    (s.setVoice c x).voice d = s.voice d := by
  have : c.val ≠ d.val := fun e => h (Fin.ext e.symm)
  simp [State.voice, State.setVoice, Vector.getElem_set_ne, this]

theorem State.voice_setVoice (c d : Fin 16) (x : Voice) :
    (s.setVoice c x).voice d = if d = c then x else s.voice d := by
  split
  · next h => subst h; simp
  · next h => exact s.voice_setVoice_other c d x h

@[simp] theorem State.setVoice_rx (c : Fin 16) (x : Voice) : (s.setVoice c x).rx = s.rx := rfl
@[simp] theorem State.setVoice_lane (c : Fin 16) (x : Voice) : (s.setVoice c x).lane = s.lane := rfl
@[simp] theorem State.setVoice_tx (c : Fin 16) (x : Voice) : (s.setVoice c x).tx = s.tx := rfl
@[simp] theorem State.setVoice_clock (c : Fin 16) (x : Voice) :
    (s.setVoice c x).clock = s.clock := rfl
@[simp] theorem State.setVoice_cues (c : Fin 16) (x : Voice) : (s.setVoice c x).cues = s.cues := rfl
@[simp] theorem State.setVoice_memory (c : Fin 16) (x : Voice) :
    (s.setVoice c x).memory = s.memory := rfl
@[simp] theorem State.setVoice_store (c : Fin 16) (x : Voice) :
    (s.setVoice c x).store = s.store := rfl
@[simp] theorem State.setVoice_events (c : Fin 16) (x : Voice) :
    (s.setVoice c x).events = s.events := rfl
@[simp] theorem State.setVoice_reserve (c : Fin 16) (x : Voice) :
    (s.setVoice c x).reserve = s.reserve := rfl
@[simp] theorem State.setVoice_chans (c : Fin 16) (x : Voice) :
    (s.setVoice c x).chans = s.chans := rfl
@[simp] theorem State.setVoice_gpi (c : Fin 16) (x : Voice) : (s.setVoice c x).gpi = s.gpi := rfl
@[simp] theorem State.setVoice_gpo (c : Fin 16) (x : Voice) : (s.setVoice c x).gpo = s.gpo := rfl
@[simp] theorem State.setVoice_asrun (c : Fin 16) (x : Voice) :
    (s.setVoice c x).asrun = s.asrun := rfl
@[simp] theorem State.setVoice_cmd (c : Fin 16) (x : Voice) : (s.setVoice c x).cmd = s.cmd := rfl
@[simp] theorem State.setVoice_alert (c : Fin 16) (x : Voice) :
    (s.setVoice c x).alert = s.alert := rfl
@[simp] theorem State.setVoice_forming (c : Fin 16) (x : Voice) :
    (s.setVoice c x).forming = s.forming := rfl
@[simp] theorem State.setVoice_pending (c : Fin 16) (x : Voice) :
    (s.setVoice c x).pending = s.pending := rfl

@[simp] theorem State.setRx_voice (y : Receiver) (c : Fin 16) :
    (s.setRx y).voice c = s.voice c := rfl
@[simp] theorem State.setLane_voice (y : Lane) (c : Fin 16) :
    (s.setLane y).voice c = s.voice c := rfl
@[simp] theorem State.setTx_voice (y : Egress) (c : Fin 16) : (s.setTx y).voice c = s.voice c := rfl
@[simp] theorem State.setClock_voice (y : AirClock) (c : Fin 16) :
    (s.setClock y).voice c = s.voice c := rfl
@[simp] theorem State.setCues_voice (y : CueCounters) (c : Fin 16) :
    (s.setCues y).voice c = s.voice c := rfl
@[simp] theorem State.setMemory_voice (y : List (Nat × Sample)) (c : Fin 16) :
    (s.setMemory y).voice c = s.voice c := rfl
@[simp] theorem State.setStore_voice (y : Store) (c : Fin 16) :
    (s.setStore y).voice c = s.voice c := rfl
@[simp] theorem State.setEvents_voice (y : List VoiceEvent) (c : Fin 16) :
    (s.setEvents y).voice c = s.voice c := rfl
@[simp] theorem State.setReserve_voice (y : Nat) (c : Fin 16) :
    (s.setReserve y).voice c = s.voice c := rfl
@[simp] theorem State.setChans_voice (y : Vector Channel 4) (c : Fin 16) :
    (s.setChans y).voice c = s.voice c := rfl
@[simp] theorem State.setGpi_voice (y : Vector GpiLine 8) (c : Fin 16) :
    (s.setGpi y).voice c = s.voice c := rfl
@[simp] theorem State.setGpo_voice (y : Vector GpoFunction 4) (c : Fin 16) :
    (s.setGpo y).voice c = s.voice c := rfl
@[simp] theorem State.setAsrun_voice (y : AsRunQueue) (c : Fin 16) :
    (s.setAsrun y).voice c = s.voice c := rfl
@[simp] theorem State.setCmd_voice (y : CommandUnit) (c : Fin 16) :
    (s.setCmd y).voice c = s.voice c := rfl
@[simp] theorem State.setAlert_voice (y : AlertUnit) (c : Fin 16) :
    (s.setAlert y).voice c = s.voice c := rfl
@[simp] theorem State.setForming_voice (y : Forming) (c : Fin 16) :
    (s.setForming y).voice c = s.voice c := rfl
@[simp] theorem State.setPending_voice (y : List Instr) (c : Fin 16) :
    (s.setPending y).voice c = s.voice c := rfl

@[simp] theorem State.gpiLine_setGpiLine_same (c : Fin 8) (x : GpiLine) :
    (s.setGpiLine c x).gpiLine c = x := by
  simp [State.gpiLine, State.setGpiLine]

theorem State.gpiLine_setGpiLine_other (c d : Fin 8) (x : GpiLine) (h : d ≠ c) :
    (s.setGpiLine c x).gpiLine d = s.gpiLine d := by
  have : c.val ≠ d.val := fun e => h (Fin.ext e.symm)
  simp [State.gpiLine, State.setGpiLine, Vector.getElem_set_ne, this]

theorem State.gpiLine_setGpiLine (c d : Fin 8) (x : GpiLine) :
    (s.setGpiLine c x).gpiLine d = if d = c then x else s.gpiLine d := by
  split
  · next h => subst h; simp
  · next h => exact s.gpiLine_setGpiLine_other c d x h

@[simp] theorem State.setGpiLine_rx (c : Fin 8) (x : GpiLine) : (s.setGpiLine c x).rx = s.rx := rfl
@[simp] theorem State.setGpiLine_lane (c : Fin 8) (x : GpiLine) :
    (s.setGpiLine c x).lane = s.lane := rfl
@[simp] theorem State.setGpiLine_tx (c : Fin 8) (x : GpiLine) : (s.setGpiLine c x).tx = s.tx := rfl
@[simp] theorem State.setGpiLine_clock (c : Fin 8) (x : GpiLine) :
    (s.setGpiLine c x).clock = s.clock := rfl
@[simp] theorem State.setGpiLine_cues (c : Fin 8) (x : GpiLine) :
    (s.setGpiLine c x).cues = s.cues := rfl
@[simp] theorem State.setGpiLine_memory (c : Fin 8) (x : GpiLine) :
    (s.setGpiLine c x).memory = s.memory := rfl
@[simp] theorem State.setGpiLine_store (c : Fin 8) (x : GpiLine) :
    (s.setGpiLine c x).store = s.store := rfl
@[simp] theorem State.setGpiLine_voices (c : Fin 8) (x : GpiLine) :
    (s.setGpiLine c x).voices = s.voices := rfl
@[simp] theorem State.setGpiLine_events (c : Fin 8) (x : GpiLine) :
    (s.setGpiLine c x).events = s.events := rfl
@[simp] theorem State.setGpiLine_reserve (c : Fin 8) (x : GpiLine) :
    (s.setGpiLine c x).reserve = s.reserve := rfl
@[simp] theorem State.setGpiLine_chans (c : Fin 8) (x : GpiLine) :
    (s.setGpiLine c x).chans = s.chans := rfl
@[simp] theorem State.setGpiLine_gpo (c : Fin 8) (x : GpiLine) :
    (s.setGpiLine c x).gpo = s.gpo := rfl
@[simp] theorem State.setGpiLine_asrun (c : Fin 8) (x : GpiLine) :
    (s.setGpiLine c x).asrun = s.asrun := rfl
@[simp] theorem State.setGpiLine_cmd (c : Fin 8) (x : GpiLine) :
    (s.setGpiLine c x).cmd = s.cmd := rfl
@[simp] theorem State.setGpiLine_alert (c : Fin 8) (x : GpiLine) :
    (s.setGpiLine c x).alert = s.alert := rfl
@[simp] theorem State.setGpiLine_forming (c : Fin 8) (x : GpiLine) :
    (s.setGpiLine c x).forming = s.forming := rfl
@[simp] theorem State.setGpiLine_pending (c : Fin 8) (x : GpiLine) :
    (s.setGpiLine c x).pending = s.pending := rfl

@[simp] theorem State.setRx_gpiLine (y : Receiver) (c : Fin 8) :
    (s.setRx y).gpiLine c = s.gpiLine c := rfl
@[simp] theorem State.setLane_gpiLine (y : Lane) (c : Fin 8) :
    (s.setLane y).gpiLine c = s.gpiLine c := rfl
@[simp] theorem State.setTx_gpiLine (y : Egress) (c : Fin 8) :
    (s.setTx y).gpiLine c = s.gpiLine c := rfl
@[simp] theorem State.setClock_gpiLine (y : AirClock) (c : Fin 8) :
    (s.setClock y).gpiLine c = s.gpiLine c := rfl
@[simp] theorem State.setCues_gpiLine (y : CueCounters) (c : Fin 8) :
    (s.setCues y).gpiLine c = s.gpiLine c := rfl
@[simp] theorem State.setMemory_gpiLine (y : List (Nat × Sample)) (c : Fin 8) :
    (s.setMemory y).gpiLine c = s.gpiLine c := rfl
@[simp] theorem State.setStore_gpiLine (y : Store) (c : Fin 8) :
    (s.setStore y).gpiLine c = s.gpiLine c := rfl
@[simp] theorem State.setVoices_gpiLine (y : Vector Voice 16) (c : Fin 8) :
    (s.setVoices y).gpiLine c = s.gpiLine c := rfl
@[simp] theorem State.setEvents_gpiLine (y : List VoiceEvent) (c : Fin 8) :
    (s.setEvents y).gpiLine c = s.gpiLine c := rfl
@[simp] theorem State.setReserve_gpiLine (y : Nat) (c : Fin 8) :
    (s.setReserve y).gpiLine c = s.gpiLine c := rfl
@[simp] theorem State.setChans_gpiLine (y : Vector Channel 4) (c : Fin 8) :
    (s.setChans y).gpiLine c = s.gpiLine c := rfl
@[simp] theorem State.setGpo_gpiLine (y : Vector GpoFunction 4) (c : Fin 8) :
    (s.setGpo y).gpiLine c = s.gpiLine c := rfl
@[simp] theorem State.setAsrun_gpiLine (y : AsRunQueue) (c : Fin 8) :
    (s.setAsrun y).gpiLine c = s.gpiLine c := rfl
@[simp] theorem State.setCmd_gpiLine (y : CommandUnit) (c : Fin 8) :
    (s.setCmd y).gpiLine c = s.gpiLine c := rfl
@[simp] theorem State.setAlert_gpiLine (y : AlertUnit) (c : Fin 8) :
    (s.setAlert y).gpiLine c = s.gpiLine c := rfl
@[simp] theorem State.setForming_gpiLine (y : Forming) (c : Fin 8) :
    (s.setForming y).gpiLine c = s.gpiLine c := rfl
@[simp] theorem State.setPending_gpiLine (y : List Instr) (c : Fin 8) :
    (s.setPending y).gpiLine c = s.gpiLine c := rfl

@[simp] theorem State.setCh_voice (c : Fin 4) (x : Channel) (d : Fin 16) :
    (s.setCh c x).voice d = s.voice d := rfl
@[simp] theorem State.setCh_gpiLine (c : Fin 4) (x : Channel) (d : Fin 8) :
    (s.setCh c x).gpiLine d = s.gpiLine d := rfl
@[simp] theorem State.setVoice_ch (c : Fin 16) (x : Voice) (d : Fin 4) :
    (s.setVoice c x).ch d = s.ch d := rfl
@[simp] theorem State.setVoice_gpiLine (c : Fin 16) (x : Voice) (d : Fin 8) :
    (s.setVoice c x).gpiLine d = s.gpiLine d := rfl
@[simp] theorem State.setGpiLine_ch (c : Fin 8) (x : GpiLine) (d : Fin 4) :
    (s.setGpiLine c x).ch d = s.ch d := rfl
@[simp] theorem State.setGpiLine_voice (c : Fin 8) (x : GpiLine) (d : Fin 16) :
    (s.setGpiLine c x).voice d = s.voice d := rfl

/-! #### Directory entries and clip memory -/

@[simp] theorem State.setRx_entry (y : Receiver) (n : Nat) : (s.setRx y).entry n = s.entry n := rfl
@[simp] theorem State.setRx_readWord (y : Receiver) (a : BitVec 28) :
    (s.setRx y).readWord a = s.readWord a := rfl
@[simp] theorem State.setLane_entry (y : Lane) (n : Nat) : (s.setLane y).entry n = s.entry n := rfl
@[simp] theorem State.setLane_readWord (y : Lane) (a : BitVec 28) :
    (s.setLane y).readWord a = s.readWord a := rfl
@[simp] theorem State.setTx_entry (y : Egress) (n : Nat) : (s.setTx y).entry n = s.entry n := rfl
@[simp] theorem State.setTx_readWord (y : Egress) (a : BitVec 28) :
    (s.setTx y).readWord a = s.readWord a := rfl
@[simp] theorem State.setClock_entry (y : AirClock) (n : Nat) :
    (s.setClock y).entry n = s.entry n := rfl
@[simp] theorem State.setClock_readWord (y : AirClock) (a : BitVec 28) :
    (s.setClock y).readWord a = s.readWord a := rfl
@[simp] theorem State.setCues_entry (y : CueCounters) (n : Nat) :
    (s.setCues y).entry n = s.entry n := rfl
@[simp] theorem State.setCues_readWord (y : CueCounters) (a : BitVec 28) :
    (s.setCues y).readWord a = s.readWord a := rfl
@[simp] theorem State.setMemory_entry (y : List (Nat × Sample)) (n : Nat) :
    (s.setMemory y).entry n = s.entry n := rfl
@[simp] theorem State.setStore_readWord (y : Store) (a : BitVec 28) :
    (s.setStore y).readWord a = s.readWord a := rfl
@[simp] theorem State.setVoices_entry (y : Vector Voice 16) (n : Nat) :
    (s.setVoices y).entry n = s.entry n := rfl
@[simp] theorem State.setVoices_readWord (y : Vector Voice 16) (a : BitVec 28) :
    (s.setVoices y).readWord a = s.readWord a := rfl
@[simp] theorem State.setEvents_entry (y : List VoiceEvent) (n : Nat) :
    (s.setEvents y).entry n = s.entry n := rfl
@[simp] theorem State.setEvents_readWord (y : List VoiceEvent) (a : BitVec 28) :
    (s.setEvents y).readWord a = s.readWord a := rfl
@[simp] theorem State.setReserve_entry (y : Nat) (n : Nat) :
    (s.setReserve y).entry n = s.entry n := rfl
@[simp] theorem State.setReserve_readWord (y : Nat) (a : BitVec 28) :
    (s.setReserve y).readWord a = s.readWord a := rfl
@[simp] theorem State.setChans_entry (y : Vector Channel 4) (n : Nat) :
    (s.setChans y).entry n = s.entry n := rfl
@[simp] theorem State.setChans_readWord (y : Vector Channel 4) (a : BitVec 28) :
    (s.setChans y).readWord a = s.readWord a := rfl
@[simp] theorem State.setGpi_entry (y : Vector GpiLine 8) (n : Nat) :
    (s.setGpi y).entry n = s.entry n := rfl
@[simp] theorem State.setGpi_readWord (y : Vector GpiLine 8) (a : BitVec 28) :
    (s.setGpi y).readWord a = s.readWord a := rfl
@[simp] theorem State.setGpo_entry (y : Vector GpoFunction 4) (n : Nat) :
    (s.setGpo y).entry n = s.entry n := rfl
@[simp] theorem State.setGpo_readWord (y : Vector GpoFunction 4) (a : BitVec 28) :
    (s.setGpo y).readWord a = s.readWord a := rfl
@[simp] theorem State.setAsrun_entry (y : AsRunQueue) (n : Nat) :
    (s.setAsrun y).entry n = s.entry n := rfl
@[simp] theorem State.setAsrun_readWord (y : AsRunQueue) (a : BitVec 28) :
    (s.setAsrun y).readWord a = s.readWord a := rfl
@[simp] theorem State.setCmd_entry (y : CommandUnit) (n : Nat) :
    (s.setCmd y).entry n = s.entry n := rfl
@[simp] theorem State.setCmd_readWord (y : CommandUnit) (a : BitVec 28) :
    (s.setCmd y).readWord a = s.readWord a := rfl
@[simp] theorem State.setAlert_entry (y : AlertUnit) (n : Nat) :
    (s.setAlert y).entry n = s.entry n := rfl
@[simp] theorem State.setAlert_readWord (y : AlertUnit) (a : BitVec 28) :
    (s.setAlert y).readWord a = s.readWord a := rfl
@[simp] theorem State.setForming_entry (y : Forming) (n : Nat) :
    (s.setForming y).entry n = s.entry n := rfl
@[simp] theorem State.setForming_readWord (y : Forming) (a : BitVec 28) :
    (s.setForming y).readWord a = s.readWord a := rfl
@[simp] theorem State.setPending_entry (y : List Instr) (n : Nat) :
    (s.setPending y).entry n = s.entry n := rfl
@[simp] theorem State.setPending_readWord (y : List Instr) (a : BitVec 28) :
    (s.setPending y).readWord a = s.readWord a := rfl
@[simp] theorem State.setCh_entry (c : Fin 4) (x : Channel) (n : Nat) :
    (s.setCh c x).entry n = s.entry n := rfl
@[simp] theorem State.setCh_readWord (c : Fin 4) (x : Channel) (a : BitVec 28) :
    (s.setCh c x).readWord a = s.readWord a := rfl
@[simp] theorem State.setVoice_entry (c : Fin 16) (x : Voice) (n : Nat) :
    (s.setVoice c x).entry n = s.entry n := rfl
@[simp] theorem State.setVoice_readWord (c : Fin 16) (x : Voice) (a : BitVec 28) :
    (s.setVoice c x).readWord a = s.readWord a := rfl
@[simp] theorem State.setGpiLine_entry (c : Fin 8) (x : GpiLine) (n : Nat) :
    (s.setGpiLine c x).entry n = s.entry n := rfl
@[simp] theorem State.setGpiLine_readWord (c : Fin 8) (x : GpiLine) (a : BitVec 28) :
    (s.setGpiLine c x).readWord a = s.readWord a := rfl
@[simp] theorem State.setEntry_rx (n : Nat) (e : DirEntry) : (s.setEntry n e).rx = s.rx := rfl
@[simp] theorem State.writeWord_rx (a : BitVec 28) (w : Sample) : (s.writeWord a w).rx = s.rx := rfl
@[simp] theorem State.setEntry_lane (n : Nat) (e : DirEntry) : (s.setEntry n e).lane = s.lane := rfl
@[simp] theorem State.writeWord_lane (a : BitVec 28) (w : Sample) :
    (s.writeWord a w).lane = s.lane := rfl
@[simp] theorem State.setEntry_tx (n : Nat) (e : DirEntry) : (s.setEntry n e).tx = s.tx := rfl
@[simp] theorem State.writeWord_tx (a : BitVec 28) (w : Sample) : (s.writeWord a w).tx = s.tx := rfl
@[simp] theorem State.setEntry_clock (n : Nat) (e : DirEntry) :
    (s.setEntry n e).clock = s.clock := rfl
@[simp] theorem State.writeWord_clock (a : BitVec 28) (w : Sample) :
    (s.writeWord a w).clock = s.clock := rfl
@[simp] theorem State.setEntry_cues (n : Nat) (e : DirEntry) : (s.setEntry n e).cues = s.cues := rfl
@[simp] theorem State.writeWord_cues (a : BitVec 28) (w : Sample) :
    (s.writeWord a w).cues = s.cues := rfl
@[simp] theorem State.setEntry_memory (n : Nat) (e : DirEntry) :
    (s.setEntry n e).memory = s.memory := rfl
@[simp] theorem State.writeWord_store (a : BitVec 28) (w : Sample) :
    (s.writeWord a w).store = s.store := rfl
@[simp] theorem State.setEntry_voices (n : Nat) (e : DirEntry) :
    (s.setEntry n e).voices = s.voices := rfl
@[simp] theorem State.writeWord_voices (a : BitVec 28) (w : Sample) :
    (s.writeWord a w).voices = s.voices := rfl
@[simp] theorem State.setEntry_events (n : Nat) (e : DirEntry) :
    (s.setEntry n e).events = s.events := rfl
@[simp] theorem State.writeWord_events (a : BitVec 28) (w : Sample) :
    (s.writeWord a w).events = s.events := rfl
@[simp] theorem State.setEntry_reserve (n : Nat) (e : DirEntry) :
    (s.setEntry n e).reserve = s.reserve := rfl
@[simp] theorem State.writeWord_reserve (a : BitVec 28) (w : Sample) :
    (s.writeWord a w).reserve = s.reserve := rfl
@[simp] theorem State.setEntry_chans (n : Nat) (e : DirEntry) :
    (s.setEntry n e).chans = s.chans := rfl
@[simp] theorem State.writeWord_chans (a : BitVec 28) (w : Sample) :
    (s.writeWord a w).chans = s.chans := rfl
@[simp] theorem State.setEntry_gpi (n : Nat) (e : DirEntry) : (s.setEntry n e).gpi = s.gpi := rfl
@[simp] theorem State.writeWord_gpi (a : BitVec 28) (w : Sample) :
    (s.writeWord a w).gpi = s.gpi := rfl
@[simp] theorem State.setEntry_gpo (n : Nat) (e : DirEntry) : (s.setEntry n e).gpo = s.gpo := rfl
@[simp] theorem State.writeWord_gpo (a : BitVec 28) (w : Sample) :
    (s.writeWord a w).gpo = s.gpo := rfl
@[simp] theorem State.setEntry_asrun (n : Nat) (e : DirEntry) :
    (s.setEntry n e).asrun = s.asrun := rfl
@[simp] theorem State.writeWord_asrun (a : BitVec 28) (w : Sample) :
    (s.writeWord a w).asrun = s.asrun := rfl
@[simp] theorem State.setEntry_cmd (n : Nat) (e : DirEntry) : (s.setEntry n e).cmd = s.cmd := rfl
@[simp] theorem State.writeWord_cmd (a : BitVec 28) (w : Sample) :
    (s.writeWord a w).cmd = s.cmd := rfl
@[simp] theorem State.setEntry_alert (n : Nat) (e : DirEntry) :
    (s.setEntry n e).alert = s.alert := rfl
@[simp] theorem State.writeWord_alert (a : BitVec 28) (w : Sample) :
    (s.writeWord a w).alert = s.alert := rfl
@[simp] theorem State.setEntry_forming (n : Nat) (e : DirEntry) :
    (s.setEntry n e).forming = s.forming := rfl
@[simp] theorem State.writeWord_forming (a : BitVec 28) (w : Sample) :
    (s.writeWord a w).forming = s.forming := rfl
@[simp] theorem State.setEntry_pending (n : Nat) (e : DirEntry) :
    (s.setEntry n e).pending = s.pending := rfl
@[simp] theorem State.writeWord_pending (a : BitVec 28) (w : Sample) :
    (s.writeWord a w).pending = s.pending := rfl
@[simp] theorem State.setEntry_ch (n : Nat) (e : DirEntry) (d : Fin 4) :
    (s.setEntry n e).ch d = s.ch d := rfl
@[simp] theorem State.writeWord_ch (a : BitVec 28) (w : Sample) (d : Fin 4) :
    (s.writeWord a w).ch d = s.ch d := rfl
@[simp] theorem State.setEntry_voice (n : Nat) (e : DirEntry) (d : Fin 16) :
    (s.setEntry n e).voice d = s.voice d := rfl
@[simp] theorem State.writeWord_voice (a : BitVec 28) (w : Sample) (d : Fin 16) :
    (s.writeWord a w).voice d = s.voice d := rfl
@[simp] theorem State.setEntry_gpiLine (n : Nat) (e : DirEntry) (d : Fin 8) :
    (s.setEntry n e).gpiLine d = s.gpiLine d := rfl
@[simp] theorem State.writeWord_gpiLine (a : BitVec 28) (w : Sample) (d : Fin 8) :
    (s.writeWord a w).gpiLine d = s.gpiLine d := rfl
@[simp] theorem State.setEntry_readWord (n : Nat) (e : DirEntry) (a : BitVec 28) :
    (s.setEntry n e).readWord a = s.readWord a := rfl
@[simp] theorem State.writeWord_entry (a : BitVec 28) (w : Sample) (n : Nat) :
    (s.writeWord a w).entry n = s.entry n := rfl

end Sys2Proof.Machine
end

