-- ==== Sys2Proof/Laws/Kept.lean ====
section
/-! SUPPORT. What the operations leave alone: clip memory, the waiting commands and the air clock's
count.  One lemma per operation. -/

namespace Sys2Proof.Machine

set_option linter.unusedSimpArgs false
set_option linter.unusedTactic false
set_option linter.unreachableTactic false

/-- Clip memory, the queue of waiting commands and the air clock's count. -/
def State.still (s : State) : List (Nat × Sample) × List Instr × AC × Bool :=
  (s.memory, s.pending, s.clock.ac, s.clock.noneFormed)

@[simp] theorem drawFree_still (s : State) : (drawFree s).still = s.still := rfl

@[simp] theorem State.setRx_still (s : State) (x : Receiver) :
    (s.setRx x).still = s.still := rfl
@[simp] theorem State.setLane_still (s : State) (x : Lane) :
    (s.setLane x).still = s.still := rfl
@[simp] theorem State.setTx_still (s : State) (x : Egress) :
    (s.setTx x).still = s.still := rfl
@[simp] theorem State.setCues_still (s : State) (x : CueCounters) :
    (s.setCues x).still = s.still := rfl
@[simp] theorem State.setStore_still (s : State) (x : Store) :
    (s.setStore x).still = s.still := rfl
@[simp] theorem State.setVoices_still (s : State) (x : Vector Voice 16) :
    (s.setVoices x).still = s.still := rfl
@[simp] theorem State.setEvents_still (s : State) (x : List VoiceEvent) :
    (s.setEvents x).still = s.still := rfl
@[simp] theorem State.setReserve_still (s : State) (x : Nat) :
    (s.setReserve x).still = s.still := rfl
@[simp] theorem State.setChans_still (s : State) (x : Vector Channel 4) :
    (s.setChans x).still = s.still := rfl
@[simp] theorem State.setGpi_still (s : State) (x : Vector GpiLine 8) :
    (s.setGpi x).still = s.still := rfl
@[simp] theorem State.setGpo_still (s : State) (x : Vector GpoFunction 4) :
    (s.setGpo x).still = s.still := rfl
@[simp] theorem State.setAsrun_still (s : State) (x : AsRunQueue) :
    (s.setAsrun x).still = s.still := rfl
@[simp] theorem State.setCmd_still (s : State) (x : CommandUnit) :
    (s.setCmd x).still = s.still := rfl
@[simp] theorem State.setAlert_still (s : State) (x : AlertUnit) :
    (s.setAlert x).still = s.still := rfl
@[simp] theorem State.setForming_still (s : State) (x : Forming) :
    (s.setForming x).still = s.still := rfl
@[simp] theorem State.setCh_still (s : State) (c : Fin 4) (x : Channel) :
    (s.setCh c x).still = s.still := rfl
@[simp] theorem State.setVoice_still (s : State) (c : Fin 16) (x : Voice) :
    (s.setVoice c x).still = s.still := rfl
@[simp] theorem State.setGpiLine_still (s : State) (c : Fin 8) (x : GpiLine) :
    (s.setGpiLine c x).still = s.still := rfl
@[simp] theorem State.setEntry_still (s : State) (n : Nat) (e : DirEntry) :
    (s.setEntry n e).still = s.still := rfl
@[simp] theorem State.setMonitor_still (s : State) (c : Fin 4) (m : Monitor) :
    (s.setMonitor c m).still = s.still := rfl

/-- A fold of an operation that keeps something keeps it. -/
theorem foldl_keeps {α β γ : Type} (g : α → γ) (f : α → β → α) (h : ∀ a b, g (f a b) = g a)
    (l : List β) (a : α) : g (l.foldl f a) = g a := by
  induction l generalizing a with
  | nil => rfl
  | cons b l ih => rw [List.foldl_cons, ih, h]

@[simp] theorem foldl_still {β : Type} (f : State → β → State)
    (h : ∀ a b, (f a b).still = a.still) (l : List β) (a : State) :
    (l.foldl f a).still = a.still := foldl_keeps State.still f h l a

theorem forChannels_keeps {γ : Type} (g : State → γ) (f : Fin 4 → State → State)
    (h : ∀ c s, g (f c s) = g s) (s : State) : g (forChannels f s) = g s :=
  foldl_keeps g (fun t c => f c t) (fun s c => h c s) _ s

@[simp] theorem forChannels_still (f : Fin 4 → State → State)
    (h : ∀ c s, (f c s).still = s.still) (s : State) : (forChannels f s).still = s.still :=
  forChannels_keeps State.still f h s

@[simp] theorem State.ite_still (p : Prop) [Decidable p] (a b : State) :
    (if p then a else b).still = if p then a.still else b.still := by split <;> rfl

@[simp] theorem State.ite_snd_still {α : Type} (p : Prop) [Decidable p] (a b : α × State) :
    (if p then a else b).2.still = if p then a.2.still else b.2.still := by split <;> rfl

@[simp] theorem buildAlert_still (s : State) :
    (buildAlert s).still = s.still := by
  unfold buildAlert
  try dsimp only
  repeat' split
  all_goals first | (simp; done) | (simp_all; done) | grind

@[simp] theorem raiseAlert_still (src : AlertSource) (s : State) :
    (raiseAlert src s).still = s.still := by
  unfold raiseAlert
  try dsimp only
  repeat' split
  all_goals first | (simp; done) | (simp_all; done) | grind

@[simp] theorem clearAlert_still (s : State) :
    (clearAlert s).2.still = s.still := by
  unfold clearAlert
  try dsimp only
  repeat' split
  all_goals first | (simp; done) | (simp_all; done) | grind

@[simp] theorem asrunWrite_still (r : AsRunRecord) (s : State) :
    (asrunWrite r s).still = s.still := by
  unfold asrunWrite
  try dsimp only
  repeat' split
  all_goals first | (simp; done) | (simp_all; done) | grind

@[simp] theorem asrunWriteAll_still (l : List AsRunRecord) (s : State) :
    (asrunWriteAll l s).still = s.still :=
  foldl_keeps State.still _ (fun s r => asrunWrite_still r s) l s

@[simp] theorem asrunRemove_still (n : Nat) (s : State) :
    (asrunRemove n s).still = s.still := by
  unfold asrunRemove
  try dsimp only
  repeat' split
  all_goals first | (simp; done) | (simp_all; done) | grind

@[simp] theorem answer_still (cmd : Command) (always : Bool) (r : Reply) (s : State) :
    (answer cmd always r s).still = s.still := by
  unfold answer
  try dsimp only
  repeat' split
  all_goals first | (simp; done) | (simp_all; done) | grind

@[simp] theorem immediateReport_still (dest : Byte) (code tag : Nat) (f : ErrFlag) (s : State) :
    (immediateReport dest code tag f s).still = s.still := by
  unfold immediateReport
  try dsimp only
  repeat' split
  all_goals first | (simp; done) | (simp_all; done) | grind

@[simp] theorem queueReply_still (s : State) :
    (queueReply s).still = s.still := by
  unfold queueReply
  try dsimp only
  repeat' split
  all_goals first | (simp; done) | (simp_all; done) | grind

@[simp] theorem queueReplies_still (s : State) :
    (queueReplies s).still = s.still := by
  unfold queueReplies
  try dsimp only
  repeat' split
  all_goals first | (simp; done) | (simp_all; done) | grind

@[simp] theorem emptyEntry_still (n : Nat) (s : State) :
    (emptyEntry n s).still = s.still := by
  unfold emptyEntry
  try dsimp only
  repeat' split
  all_goals first | (simp; done) | (simp_all; done) | grind

theorem holdClip_still {n : Nat} {s t : State} (h : holdClip n s = some t) :
    t.still = s.still := by
  unfold holdClip at h
  dsimp only at h
  split at h
  · cases h; rfl
  · cases h

@[simp] theorem releaseHold_still (n : Nat) (s : State) :
    (releaseHold n s).still = s.still := by
  unfold releaseHold
  try dsimp only
  repeat' split
  all_goals first | (simp; done) | (simp_all; done) | grind

@[simp] theorem retireOldest_still (s : State) :
    (retireOldest s).still = s.still := by
  unfold retireOldest
  try dsimp only
  repeat' split
  all_goals first | (simp; done) | (simp_all; done) | grind

@[simp] theorem retire_still (n : Nat) (s : State) : (retire n s).2.still = s.still := by
  induction n generalizing s with
  | zero => rfl
  | succ n ih =>
    unfold retire
    repeat' split
    all_goals simp_all

@[simp] theorem reportIngest_still (clip : Nat) (outcome : IngestOutcome) (length : Nat) (s : State) :
    (reportIngest clip outcome length s).still = s.still := by
  unfold reportIngest
  try dsimp only
  repeat' split
  all_goals first | (simp; done) | (simp_all; done) | grind

@[simp] theorem joinRing_still (n : Nat) (s : State) :
    (joinRing n s).still = s.still := by
  unfold joinRing
  try dsimp only
  repeat' split
  all_goals first | (simp; done) | (simp_all; done) | grind

@[simp] theorem endIngest_still (outcome : IngestOutcome) (s : State) :
    (endIngest outcome s).still = s.still := by
  unfold endIngest
  try dsimp only
  repeat' split
  all_goals first | (simp; done) | (simp_all; done) | grind

@[simp] theorem discardIngest_still (outcome : IngestOutcome) (s : State) :
    (discardIngest outcome s).still = s.still := by
  unfold discardIngest
  try dsimp only
  repeat' split
  all_goals first | (simp; done) | (simp_all; done) | grind

@[simp] theorem settleIngest_still (s : State) :
    (settleIngest s).still = s.still := by
  unfold settleIngest
  try dsimp only
  repeat' split
  all_goals first | (simp; done) | (simp_all; done) | grind

@[simp] theorem startIngest_still (a : Arm) (start : Option (AC × AC)) (s : State) :
    (startIngest a start s).still = s.still := by
  unfold startIngest
  try dsimp only
  repeat' split
  all_goals first | (simp; done) | (simp_all; done) | grind

@[simp] theorem storeRecordStart_still (key : BitVec 32) (start ref : AC) (s : State) :
    (storeRecordStart key start ref s).2.still = s.still := by
  unfold storeRecordStart
  try dsimp only
  repeat' split
  all_goals first | (simp; done) | (simp_all; done) | grind

@[simp] theorem storeRecordStop_still (key : BitVec 32) (stop : AC) (s : State) :
    (storeRecordStop key stop s).2.still = s.still := by
  unfold storeRecordStop
  try dsimp only
  repeat' split
  all_goals first | (simp; done) | (simp_all; done) | grind

@[simp] theorem storeDeviceReset_still (s : State) :
    (storeDeviceReset s).still = s.still := by
  unfold storeDeviceReset
  try dsimp only
  repeat' split
  all_goals first | (simp; done) | (simp_all; done) | grind

theorem claimBreak_still {c : Fin 4} {s t : State} {a b : Fin 16}
    (h : claimBreak c s = some (a, b, t)) : t.still = s.still := by
  unfold claimBreak at h
  split at h
  · cases h
  · split at h
    · cases h; rfl
    · cases h

theorem claimOne_still {c : Fin 4} {p : Purpose} {clip : Nat} {s t : State} {v : Fin 16}
    (h : claimOne c p clip s = .ok (v, t)) : t.still = s.still := by
  unfold claimOne at h
  split at h
  · cases h
  · split at h
    · cases h
    · rename_i u hh
      cases h
      simpa using holdClip_still hh

@[simp] theorem raiseEvent_still (k : EventKind) (v : Fin 16) (ac : AC) (s : State) :
    (raiseEvent k v ac s).still = s.still := by
  unfold raiseEvent
  try dsimp only
  repeat' split
  all_goals first | (simp; done) | (simp_all; done) | grind

@[simp] theorem releaseVoice_still (v : Fin 16) (s : State) :
    (releaseVoice v s).still = s.still := by
  unfold releaseVoice
  try dsimp only
  repeat' split
  all_goals first | (simp; done) | (simp_all; done) | grind

@[simp] theorem releaseChannelVoices_still (c : Fin 4) (s : State) :
    (releaseChannelVoices c s).still = s.still := by
  unfold releaseChannelVoices
  try dsimp only
  repeat' split
  all_goals first | (simp; done) | (simp_all; done) | grind

theorem primeHold_still {x : Voice} {clip : Nat} {s t : State}
    (h : primeHold x clip s = some t) : t.still = s.still := by
  unfold primeHold at h
  split at h
  · cases h; rfl
  · split at h
    · cases h
    · rename_i u hh
      split at h <;> cases h <;> simpa using holdClip_still hh

@[simp] theorem primeVoice_still (v : Fin 16) (q : PrimeReq) (s : State) :
    (primeVoice v q s).2.still = s.still := by
  unfold primeVoice
  dsimp only
  split
  · rfl
  · split
    · rfl
    · rename_i u hh
      simpa using primeHold_still hh

@[simp] theorem stopVoice_still (k : EventKind) (v : Fin 16) (ac : AC) (s : State) :
    (stopVoice k v ac s).still = s.still := by
  unfold stopVoice
  try dsimp only
  repeat' split
  all_goals first | (simp; done) | (simp_all; done) | grind

@[simp] theorem fadeToZero_still (v : Fin 16) (j : Nat) (s : State) :
    (fadeToZero v j s).2.still = s.still := by
  unfold fadeToZero
  try dsimp only
  repeat' split
  all_goals first | (simp; done) | (simp_all; done) | grind

@[simp] theorem fadeToLevel_still (v : Fin 16) (target j : Nat) (s : State) :
    (fadeToLevel v target j s).2.still = s.still := by
  unfold fadeToLevel
  try dsimp only
  repeat' split
  all_goals first | (simp; done) | (simp_all; done) | grind

@[simp] theorem rampVoice_still (v : Fin 16) (target rate interval : Nat) (stop : Bool) (s : State) :
    (rampVoice v target rate interval stop s).2.still = s.still := by
  unfold rampVoice
  try dsimp only
  repeat' split
  all_goals first | (simp; done) | (simp_all; done) | grind

@[simp] theorem stageVoice_still (v : Fin 16) (target rate : Nat) (s : State) :
    (stageVoice v target rate s).2.still = s.still := by
  unfold stageVoice
  try dsimp only
  repeat' split
  all_goals first | (simp; done) | (simp_all; done) | grind

@[simp] theorem cancelVoice_still (v : Fin 16) (s : State) :
    (cancelVoice v s).2.still = s.still := by
  unfold cancelVoice
  try dsimp only
  repeat' split
  all_goals first | (simp; done) | (simp_all; done) | grind

@[simp] theorem playVoice_still (v : Fin 16) (s : State) :
    (playVoice v s).still = s.still := by
  unfold playVoice
  try dsimp only
  repeat' split
  all_goals first | (simp; done) | (simp_all; done) | grind

@[simp] theorem startVoice_still (v : Fin 16) (s : State) :
    (startVoice v s).still = s.still := by
  unfold startVoice
  try dsimp only
  repeat' split
  all_goals first | (simp; done) | (simp_all; done) | grind

@[simp] theorem handleVoice_still (v : Fin 16) (s : State) :
    (handleVoice v s).still = s.still := by
  unfold handleVoice
  try dsimp only
  repeat' split
  all_goals first | (simp; done) | (simp_all; done) | grind

@[simp] theorem handleThrough_still (last : Nat) (s : State) :
    (handleThrough last s).still = s.still := by
  unfold handleThrough
  try dsimp only
  repeat' split
  all_goals first | (simp; done) | (simp_all; done) | grind

@[simp] theorem startThrough_still (v : Fin 16) (s : State) :
    (startThrough v s).still = s.still := by
  unfold startThrough
  try dsimp only
  repeat' split
  all_goals first | (simp; done) | (simp_all; done) | grind

@[simp] theorem voiceShift_still (d : AC) (s : State) :
    (voiceShift d s).still = s.still := by
  unfold voiceShift
  try dsimp only
  repeat' split
  all_goals first | (simp; done) | (simp_all; done) | grind

@[simp] theorem setChannelState_still (c : Fin 4) (new : ChannelState) (s : State) :
    (setChannelState c new s).still = s.still := by
  unfold setChannelState
  try dsimp only
  repeat' split
  all_goals first | (simp; done) | (simp_all; done) | grind

@[simp] theorem fadeGain_still (c : Fin 4) (level j : Nat) (s : State) :
    (fadeGain c level j s).still = s.still := by
  unfold fadeGain
  try dsimp only
  repeat' split
  all_goals first | (simp; done) | (simp_all; done) | grind

@[simp] theorem requestPreroll_still (c : Fin 4) (s : State) :
    (requestPreroll c s).2.still = s.still := by
  unfold requestPreroll
  try dsimp only
  repeat' split
  all_goals first | (simp; done) | (simp_all; done) | grind

@[simp] theorem finishReturn_still (c : Fin 4) (s : State) :
    (finishReturn c s).still = s.still := by
  unfold finishReturn
  try dsimp only
  repeat' split
  all_goals first | (simp; done) | (simp_all; done) | grind

@[simp] theorem requestWithdraw_still (c : Fin 4) (s : State) :
    (requestWithdraw c s).still = s.still := by
  unfold requestWithdraw
  try dsimp only
  repeat' split
  all_goals first | (simp; done) | (simp_all; done) | grind

@[simp] theorem requestOpen_still (c : Fin 4) (level : Nat) (s : State) :
    (requestOpen c level s).2.still = s.still := by
  unfold requestOpen
  try dsimp only
  repeat' split
  all_goals first | (simp; done) | (simp_all; done) | grind

@[simp] theorem requestJoin_still (c : Fin 4) (s : State) :
    (requestJoin c s).still = s.still := by
  unfold requestJoin
  try dsimp only
  repeat' split
  all_goals first | (simp; done) | (simp_all; done) | grind

@[simp] theorem requestEmergency_still (c : Fin 4) (s : State) :
    (requestEmergency c s).2.still = s.still := by
  unfold requestEmergency
  try dsimp only
  repeat' split
  all_goals first | (simp; done) | (simp_all; done) | grind

@[simp] theorem requestRecover_still (c : Fin 4) (s : State) :
    (requestRecover c s).still = s.still := by
  unfold requestRecover
  try dsimp only
  repeat' split
  all_goals first | (simp; done) | (simp_all; done) | grind

@[simp] theorem requestEmergencyClear_still (c : Fin 4) (s : State) :
    (requestEmergencyClear c s).still = s.still := by
  unfold requestEmergencyClear
  try dsimp only
  repeat' split
  all_goals first | (simp; done) | (simp_all; done) | grind

@[simp] theorem moveGain_still (c : Fin 4) (s : State) :
    (moveGain c s).still = s.still := by
  unfold moveGain
  try dsimp only
  repeat' split
  all_goals first | (simp; done) | (simp_all; done) | grind

@[simp] theorem moveDuck_still (c : Fin 4) (s : State) :
    (moveDuck c s).still = s.still := by
  unfold moveDuck
  try dsimp only
  repeat' split
  all_goals first | (simp; done) | (simp_all; done) | grind

@[simp] theorem countSaturation_still (c : Fin 4) (replaced : Bool) (s : State) :
    (countSaturation c replaced s).still = s.still := by
  unfold countSaturation
  try dsimp only
  repeat' split
  all_goals first | (simp; done) | (simp_all; done) | grind

@[simp] theorem mixChannel_still (c : Fin 4) (carried : Option (Vector Sample 16)) (slots : Vector Sample 16) (s : State) :
    (mixChannel c carried slots s).2.still = s.still := by
  unfold mixChannel
  try dsimp only
  repeat' split
  all_goals first | (simp; done) | (simp_all; done) | grind

@[simp] theorem mixAll_still (carried : Option (Vector Sample 16)) (s : State) :
    (mixAll carried s).2.still = s.still := by
  unfold mixAll
  try dsimp only
  repeat' split
  all_goals first | (simp; done) | (simp_all; done) | grind

@[simp] theorem clearSilence_still (c : Fin 4) (s : State) :
    (clearSilence c s).still = s.still := by
  unfold clearSilence
  try dsimp only
  repeat' split
  all_goals first | (simp; done) | (simp_all; done) | grind

@[simp] theorem startEmergency_still (c : Fin 4) (clip : Nat) (s : State) :
    (startEmergency c clip s).still = s.still := by
  unfold startEmergency
  split
  · simp
  · rename_i h
    have := claimOne_still h
    dsimp only
    split <;> simp [this]

@[simp] theorem attemptFill_still (c : Fin 4) (s : State) :
    (attemptFill c s).still = s.still := by
  unfold attemptFill
  try dsimp only
  repeat' split
  all_goals first | (simp; done) | (simp_all; done) | grind

@[simp] theorem forceFill_still (c : Fin 4) (s : State) :
    (forceFill c s).still = s.still := by
  unfold forceFill
  try dsimp only
  repeat' split
  all_goals first | (simp; done) | (simp_all; done) | grind

@[simp] theorem judgeBlock_still (c : Fin 4) (s : State) :
    (judgeBlock c s).still = s.still := by
  unfold judgeBlock
  try dsimp only
  repeat' split
  all_goals first | (simp; done) | (simp_all; done) | grind

@[simp] theorem reachSilence_still (c : Fin 4) (s : State) :
    (reachSilence c s).still = s.still := by
  unfold reachSilence
  try dsimp only
  repeat' split
  all_goals first | (simp; done) | (simp_all; done) | grind

@[simp] theorem beginRecovery_still (c : Fin 4) (s : State) :
    (beginRecovery c s).still = s.still := by
  unfold beginRecovery
  try dsimp only
  repeat' split
  all_goals first | (simp; done) | (simp_all; done) | grind

@[simp] theorem takeOver_still (c : Fin 4) (s : State) :
    (takeOver c s).still = s.still := by
  unfold takeOver
  try dsimp only
  repeat' split
  all_goals first | (simp; done) | (simp_all; done) | grind

@[simp] theorem takeEmergencyEvent_still (c : Fin 4) (e : VoiceEvent) (s : State) :
    (takeEmergencyEvent c e s).still = s.still := by
  unfold takeEmergencyEvent
  try dsimp only
  repeat' split
  all_goals first | (simp; done) | (simp_all; done) | grind

@[simp] theorem modRecord_still (c : Fin 4) (n : Nat) (f : BreakRecord → BreakRecord) (s : State) :
    (modRecord c n f s).still = s.still := by
  unfold modRecord
  try dsimp only
  repeat' split
  all_goals first | (simp; done) | (simp_all; done) | grind

@[simp] theorem releaseHolds_still (clips : List Nat) (s : State) :
    (releaseHolds clips s).still = s.still := by
  unfold releaseHolds
  try dsimp only
  repeat' split
  all_goals first | (simp; done) | (simp_all; done) | grind

@[simp] theorem takeHolds_still (clips : List Nat) (s : State) :
    (takeHolds clips s).still = s.still := by
  unfold takeHolds
  refine foldl_still _ (fun t n => ?_) _ _
  cases h : holdClip n t with
  | none => rfl
  | some u => simpa using holdClip_still h

@[simp] theorem removeRecord_still (c : Fin 4) (n : Nat) (s : State) :
    (removeRecord c n s).still = s.still := by
  unfold removeRecord
  try dsimp only
  repeat' split
  all_goals first | (simp; done) | (simp_all; done) | grind

@[simp] theorem modParts_still (c : Fin 4) (n : Nat) (f : Part → Part) (s : State) :
    (modParts c n f s).still = s.still := by
  unfold modParts
  try dsimp only
  repeat' split
  all_goals first | (simp; done) | (simp_all; done) | grind

@[simp] theorem primeNext_still (c : Fin 4) (n : Nat) (v : Fin 16) (s : State) :
    (primeNext c n v s).still = s.still := by
  unfold primeNext
  try dsimp only
  repeat' split
  all_goals first | (simp; done) | (simp_all; done) | grind

@[simp] theorem triggerFill_still (c : Fin 4) (n : Nat) (s : State) :
    (triggerFill c n s).still = s.still := by
  unfold triggerFill
  repeat' split
  all_goals first | rfl | (rename_i h; simpa using holdClip_still h)

@[simp] theorem endEmptyPlan_still (c : Fin 4) (r : BreakRecord) (p : Plan) (s : State) :
    (endEmptyPlan c r p s).still = s.still := by
  unfold endEmptyPlan
  try dsimp only
  repeat' split
  all_goals first | (simp; done) | (simp_all; done) | grind

@[simp] theorem endRefusedClaim_still (c : Fin 4) (r : BreakRecord) (p : Plan) (s : State) :
    (endRefusedClaim c r p s).still = s.still := by
  unfold endRefusedClaim
  try dsimp only
  repeat' split
  all_goals first | (simp; done) | (simp_all; done) | grind

@[simp] theorem startBreak_still (c : Fin 4) (n : Nat) (p : Plan) (v : Fin 16 × Fin 16) (s : State) :
    (startBreak c n p v s).still = s.still := by
  unfold startBreak
  try dsimp only
  repeat' split
  all_goals first | (simp; done) | (simp_all; done) | grind

@[simp] theorem acceptTrigger_still (c : Fin 4) (n : Nat) (start : AC) (deadline : Option AC)
    (late : Bool) (s : State) : (acceptTrigger c n start deadline late s).2.still = s.still := by
  unfold acceptTrigger
  dsimp only
  split
  · simp
  · split
    · simp
    · split
      · simp
      · rename_i h
        have := claimBreak_still h
        simp [this]

@[simp] theorem judgeTimeRecord_still (c : Fin 4) (n : Nat) (s : State) :
    (judgeTimeRecord c n s).still = s.still := by
  unfold judgeTimeRecord
  try dsimp only
  repeat' split
  all_goals first | (simp; done) | (simp_all; done) | grind

@[simp] theorem judgeTime_still (c : Fin 4) (s : State) :
    (judgeTime c s).still = s.still := by
  unfold judgeTime
  try dsimp only
  repeat' split
  all_goals first | (simp; done) | (simp_all; done) | grind

@[simp] theorem expireRecord_still (c : Fin 4) (n : Nat) (s : State) :
    (expireRecord c n s).still = s.still := by
  unfold expireRecord
  try dsimp only
  repeat' split
  all_goals first | (simp; done) | (simp_all; done) | grind

@[simp] theorem expireAll_still (c : Fin 4) (s : State) :
    (expireAll c s).still = s.still := by
  unfold expireAll
  try dsimp only
  repeat' split
  all_goals first | (simp; done) | (simp_all; done) | grind

@[simp] theorem fireRecord_still (c : Fin 4) (r : BreakRecord) (s : State) :
    (fireRecord c r s).2.still = s.still := by
  unfold fireRecord
  try dsimp only
  repeat' split
  all_goals first | (simp; done) | (simp_all; done) | grind

@[simp] theorem gpiFire_still (c : Fin 4) (s : State) :
    (gpiFire c s).still = s.still := by
  unfold gpiFire
  try dsimp only
  repeat' split
  all_goals first | (simp; done) | (simp_all; done) | grind

@[simp] theorem releaseVoices_still (l : List (Fin 16)) (s : State) :
    (releaseVoices l s).still = s.still := by
  unfold releaseVoices
  try dsimp only
  repeat' split
  all_goals first | (simp; done) | (simp_all; done) | grind

@[simp] theorem completeBreak_still (c : Fin 4) (s : State) :
    (completeBreak c s).still = s.still := by
  unfold completeBreak
  try dsimp only
  repeat' split
  all_goals first | (simp; done) | (simp_all; done) | grind

@[simp] theorem finishJoin_still (c : Fin 4) (s : State) :
    (finishJoin c s).still = s.still := by
  unfold finishJoin
  try dsimp only
  repeat' split
  all_goals first | (simp; done) | (simp_all; done) | grind

@[simp] theorem requestBreakClear_still (c : Fin 4) (s : State) :
    (requestBreakClear c s).still = s.still := by
  unfold requestBreakClear
  try dsimp only
  repeat' split
  all_goals first | (simp; done) | (simp_all; done) | grind

@[simp] theorem checkBreakClear_still (c : Fin 4) (s : State) :
    (checkBreakClear c s).still = s.still := by
  unfold checkBreakClear
  try dsimp only
  repeat' split
  all_goals first | (simp; done) | (simp_all; done) | grind

@[simp] theorem markJoin_still (c : Fin 4) (n : Nat) (v : Fin 16) (s : State) :
    (markJoin c n v s).still = s.still := by
  unfold markJoin
  try dsimp only
  repeat' split
  all_goals first | (simp; done) | (simp_all; done) | grind

@[simp] theorem stopForJoin_still (c : Fin 4) (n : Nat) (v : Fin 16) (s : State) :
    (stopForJoin c n v s).still = s.still := by
  unfold stopForJoin
  try dsimp only
  repeat' split
  all_goals first | (simp; done) | (simp_all; done) | grind

@[simp] theorem cancelStarted_still (c : Fin 4) (n : Nat) (v : Fin 16) (s : State) :
    (cancelStarted c n v s).still = s.still := by
  unfold cancelStarted
  try dsimp only
  repeat' split
  all_goals first | (simp; done) | (simp_all; done) | grind

@[simp] theorem openBreak_still (c : Fin 4) (s : State) :
    (openBreak c s).still = s.still := by
  unfold openBreak
  try dsimp only
  repeat' split
  all_goals first | (simp; done) | (simp_all; done) | grind

@[simp] theorem openDueBreaks_still (s : State) :
    (openDueBreaks s).still = s.still := by
  unfold openDueBreaks
  try dsimp only
  repeat' split
  all_goals first | (simp; done) | (simp_all; done) | grind

@[simp] theorem joinAround_still (o : Config.StartOrder) (c : Fin 4) (n : Nat) (v : Fin 16)
    (s : State) :
    (joinAround o c n v s).still = s.still := by
  unfold joinAround
  try dsimp only
  repeat' split
  all_goals first | (simp; done) | (simp_all; done) | grind

@[simp] theorem joinVoice_still (c : Fin 4) (n : Nat) (v : Fin 16) (s : State) :
    (joinVoice c n v s).still = s.still := by
  unfold joinVoice
  try dsimp only
  repeat' split
  all_goals first | (simp; done) | (simp_all; done) | grind

@[simp] theorem joinBreak_still (c : Fin 4) (s : State) :
    (joinBreak c s).still = s.still := by
  unfold joinBreak
  try dsimp only
  repeat' split
  all_goals first | (simp; done) | (simp_all; done) | grind

@[simp] theorem fadePredecessor_still (c : Fin 4) (n k : Nat) (s : State) :
    (fadePredecessor c n k s).still = s.still := by
  unfold fadePredecessor
  try dsimp only
  repeat' split
  all_goals first | (simp; done) | (simp_all; done) | grind

@[simp] theorem takeStarted_still (c : Fin 4) (r : BreakRecord) (v : Fin 16) (at_ : AC) (s : State) :
    (takeStarted c r v at_ s).still = s.still := by
  unfold takeStarted
  try dsimp only
  repeat' split
  all_goals first | (simp; done) | (simp_all; done) | grind

@[simp] theorem takeFinished_still (c : Fin 4) (r : BreakRecord) (v : Fin 16) (k : EventKind) (at_ : AC) (s : State) :
    (takeFinished c r v k at_ s).still = s.still := by
  unfold takeFinished
  try dsimp only
  repeat' split
  all_goals first | (simp; done) | (simp_all; done) | grind

@[simp] theorem takeBreakEvent_still (c : Fin 4) (e : VoiceEvent) (s : State) :
    (takeBreakEvent c e s).still = s.still := by
  unfold takeBreakEvent
  try dsimp only
  repeat' split
  all_goals first | (simp; done) | (simp_all; done) | grind

@[simp] theorem withdrawBreak_still (c : Fin 4) (cause : Cause) (s : State) :
    (withdrawBreak c cause s).still = s.still := by
  unfold withdrawBreak
  try dsimp only
  repeat' split
  all_goals first | (simp; done) | (simp_all; done) | grind

@[simp] theorem moveReturn_still (c : Fin 4) (n : Nat) (x : AC) (cause : Cause) (s : State) :
    (moveReturn c n x cause s).still = s.still := by
  unfold moveReturn
  try dsimp only
  repeat' split
  all_goals first | (simp; done) | (simp_all; done) | grind

@[simp] theorem closeBreak_still (c : Fin 4) (m : AC) (s : State) :
    (closeBreak c m s).still = s.still := by
  unfold closeBreak
  try dsimp only
  repeat' split
  all_goals first | (simp; done) | (simp_all; done) | grind

@[simp] theorem abortBreak_still (c : Fin 4) (s : State) :
    (abortBreak c s).2.still = s.still := by
  unfold abortBreak
  try dsimp only
  repeat' split
  all_goals first | (simp; done) | (simp_all; done) | grind

@[simp] theorem refuseCart_still (c : Fin 4) (s : State) :
    (refuseCart c s).still = s.still := by
  unfold refuseCart
  try dsimp only
  repeat' split
  all_goals first | (simp; done) | (simp_all; done) | grind

@[simp] theorem requestCart_still (c : Fin 4) (clip level : Nat) (s : State) :
    (requestCart c clip level s).2.still = s.still := by
  unfold requestCart
  split
  · simp
  · split
    · simp
    · simp
    · rename_i h
      have := claimOne_still h
      simp [this]

@[simp] theorem takeCartEvent_still (c : Fin 4) (e : VoiceEvent) (s : State) :
    (takeCartEvent c e s).still = s.still := by
  unfold takeCartEvent
  try dsimp only
  repeat' split
  all_goals first | (simp; done) | (simp_all; done) | grind

@[simp] theorem deliverEvent_still (s : State) :
    (deliverEvent s).still = s.still := by
  unfold deliverEvent
  try dsimp only
  repeat' split
  all_goals first | (simp; done) | (simp_all; done) | grind

@[simp] theorem deliverEvents_still (n : Nat) (s : State) : (deliverEvents n s).still = s.still := by
  induction n generalizing s with
  | zero => rfl
  | succ n ih => rw [deliverEvents, ih, deliverEvent_still]

@[simp] theorem deliverAll_still (s : State) :
    (deliverAll s).still = s.still := by
  unfold deliverAll
  try dsimp only
  repeat' split
  all_goals first | (simp; done) | (simp_all; done) | grind

@[simp] theorem removeAllRecords_still (c : Fin 4) (s : State) :
    (removeAllRecords c s).still = s.still := by
  unfold removeAllRecords
  try dsimp only
  repeat' split
  all_goals first | (simp; done) | (simp_all; done) | grind

@[simp] theorem resetChannel_still (c : Fin 4) (s : State) :
    (resetChannel c s).still = s.still := by
  unfold resetChannel
  try dsimp only
  repeat' split
  all_goals first | (simp; done) | (simp_all; done) | grind

@[simp] theorem actOnEdge_still (fn : GpiFunction) (s : State) :
    (actOnEdge fn s).still = s.still := by
  unfold actOnEdge
  try dsimp only
  repeat' split
  all_goals first | (simp; done) | (simp_all; done) | grind

@[simp] theorem sampleLine_still (g : Fin 8) (level : Bool) (s : State) :
    (sampleLine g level s).still = s.still := by
  unfold sampleLine
  try dsimp only
  repeat' split
  all_goals first | (simp; done) | (simp_all; done) | grind

@[simp] theorem sampleLines_still (gpi : Byte) (s : State) :
    (sampleLines gpi s).still = s.still := by
  unfold sampleLines
  try dsimp only
  repeat' split
  all_goals first | (simp; done) | (simp_all; done) | grind

@[simp] theorem modCues_still (f : CueCounters → CueCounters) (s : State) :
    (modCues f s).still = s.still := by
  unfold modCues
  try dsimp only
  repeat' split
  all_goals first | (simp; done) | (simp_all; done) | grind

@[simp] theorem malformedCue_still (s : State) :
    (malformedCue s).still = s.still := by
  unfold malformedCue
  try dsimp only
  repeat' split
  all_goals first | (simp; done) | (simp_all; done) | grind

@[simp] theorem unmatchedCue_still (s : State) :
    (unmatchedCue s).still = s.still := by
  unfold unmatchedCue
  try dsimp only
  repeat' split
  all_goals first | (simp; done) | (simp_all; done) | grind

@[simp] theorem refusedCue_still (s : State) :
    (refusedCue s).still = s.still := by
  unfold refusedCue
  try dsimp only
  repeat' split
  all_goals first | (simp; done) | (simp_all; done) | grind

@[simp] theorem openChannel_still (ref : AC) (key offset window : Nat) (c : Fin 4) (s : State) :
    (openChannel ref key offset window c s).still = s.still := by
  unfold openChannel
  try dsimp only
  repeat' split
  all_goals first | (simp; done) | (simp_all; done) | grind

@[simp] theorem closeChannel_still (m : AC) (key : Nat) (c : Fin 4) (s : State) :
    (closeChannel m key c s).still = s.still := by
  unfold closeChannel
  try dsimp only
  repeat' split
  all_goals first | (simp; done) | (simp_all; done) | grind

@[simp] theorem visitAll_still (f : Visit) (h : ∀ c s, (f c s).still = s.still)
    (l : List (Fin 4)) (s : State) : (visitAll f l s).still = s.still :=
  foldl_still _ (fun t c => h c t) _ s

/-- What the visits of a cue are, when it has any: those of an OPEN or those of a CLOSE. -/
theorem openVisits_still (p : List Byte) (ref : AC) (l : List (Fin 4)) (f : Visit)
    (h : openVisits p ref = some (l, f)) (c : Fin 4) (s : State) : (f c s).still = s.still := by
  unfold openVisits at h
  dsimp only at h
  split at h
  · exact absurd h (by simp)
  · simp only [Option.some.injEq, Prod.mk.injEq] at h
    rw [← h.2]; simp

theorem closeVisits_still (p : List Byte) (ref : AC) (l : List (Fin 4)) (f : Visit)
    (h : closeVisits p ref = some (l, f)) (c : Fin 4) (s : State) : (f c s).still = s.still := by
  unfold closeVisits at h
  dsimp only at h
  split at h
  · exact absurd h (by simp)
  · simp only [Option.some.injEq, Prod.mk.injEq] at h
    rw [← h.2]; simp

theorem cueBegun_still (s : State) (n : Nat) (l : List (Fin 4)) (f : Visit)
    (h : s.cueBegun n = some (l, f)) (c : Fin 4) (t : State) : (f c t).still = t.still := by
  unfold State.cueBegun at h
  obtain ⟨r, -, h⟩ := Option.bind_eq_some_iff.1 (Option.filter_eq_some_iff.1 h).1
  unfold Routed.visits at h
  split at h
  · exact openVisits_still _ _ _ _ h c t
  · exact closeVisits_still _ _ _ _ h c t
  · exact absurd h (by simp)

theorem visitOrMalformed_still (v : Option (List (Fin 4) × Visit))
    (h : ∀ l f, v = some (l, f) → ∀ c s, (f c s).still = s.still) (s : State) :
    (visitOrMalformed v s).still = s.still := by
  unfold visitOrMalformed
  split
  · simp
  · exact visitAll_still _ (h _ _ rfl) _ _

@[simp] theorem decodeOpen_still (p : List Byte) (ref : AC) (s : State) :
    (decodeOpen p ref s).still = s.still :=
  visitOrMalformed_still _ (fun l f h => openVisits_still p ref l f h) s

@[simp] theorem decodeClose_still (p : List Byte) (ref : AC) (s : State) :
    (decodeClose p ref s).still = s.still :=
  visitOrMalformed_still _ (fun l f h => closeVisits_still p ref l f h) s

@[simp] theorem decodeRecordStart_still (p : List Byte) (ref : AC) (s : State) : (decodeRecordStart p ref s).still = s.still := by
  unfold decodeRecordStart
  dsimp only
  split
  · simp
  · have h := storeRecordStart_still (BitVec.ofNat 32 (field p 2 4)) (plusFrames ref (field p 6 4)) ref s
    split <;> simp_all

@[simp] theorem decodeRecordStop_still (p : List Byte) (ref : AC) (s : State) : (decodeRecordStop p ref s).still = s.still := by
  unfold decodeRecordStop
  dsimp only
  split
  · simp
  · have h := storeRecordStop_still (BitVec.ofNat 32 (field p 2 4)) (plusFrames ref (field p 6 4)) s
    split <;> simp_all

@[simp] theorem decodeTimeMark_still (p : List Byte) (ref : AC) (s : State) :
    (decodeTimeMark p ref s).still = s.still := by
  unfold decodeTimeMark
  dsimp only
  split
  · simp
  · rfl

@[simp] theorem decodeUnknown_still (p : List Byte) (s : State) :
    (decodeUnknown p s).still = s.still := by
  unfold decodeUnknown
  try dsimp only
  repeat' split
  all_goals first | (simp; done) | (simp_all; done) | grind

@[simp] theorem countCue_still (s : State) :
    (countCue s).still = s.still := by
  unfold countCue
  try dsimp only
  repeat' split
  all_goals first | (simp; done) | (simp_all; done) | grind

@[simp] theorem takeCue_still (r : Routed) (s : State) :
    (takeCue r s).still = s.still := by
  unfold takeCue
  try dsimp only
  repeat' split
  all_goals first | (simp; done) | (simp_all; done) | grind

@[simp] theorem closeAssembly_still (s : State) :
    (closeAssembly s).still = s.still := by
  unfold closeAssembly
  try dsimp only
  repeat' split
  all_goals first | (simp; done) | (simp_all; done) | grind

@[simp] theorem offerCommand_still (src : Byte) (h : CmdHeader) (body : List Byte) (s : State) :
    (offerCommand src h body s).still = s.still := by
  unfold offerCommand
  try dsimp only
  repeat' split
  all_goals first | (simp; done) | (simp_all; done) | grind

@[simp] theorem takeFirst_still (r : Routed) (s : State) :
    (takeFirst r s).still = s.still := by
  unfold takeFirst
  try dsimp only
  repeat' split
  all_goals first | (simp; done) | (simp_all; done) | grind

@[simp] theorem discardAssembly_still (a : Assembly) (f : ErrFlag) (s : State) :
    (discardAssembly a f s).still = s.still := by
  unfold discardAssembly
  try dsimp only
  repeat' split
  all_goals first | (simp; done) | (simp_all; done) | grind

@[simp] theorem takeCommand_still (r : Routed) (s : State) :
    (takeCommand r s).still = s.still := by
  unfold takeCommand
  try dsimp only
  repeat' split
  all_goals first | (simp; done) | (simp_all; done) | grind

@[simp] theorem takeMore_still (r : Routed) (s : State) :
    (takeMore r s).still = s.still := by
  unfold takeMore
  try dsimp only
  repeat' split
  all_goals first | (simp; done) | (simp_all; done) | grind

@[simp] theorem timeoutAssembly_still (s : State) :
    (timeoutAssembly s).still = s.still := by
  unfold timeoutAssembly
  try dsimp only
  repeat' split
  all_goals first | (simp; done) | (simp_all; done) | grind

@[simp] theorem takeRouted_still (r : Routed) (s : State) :
    (takeRouted r s).still = s.still := by
  unfold takeRouted
  try dsimp only
  repeat' split
  all_goals first | (simp; done) | (simp_all; done) | grind

@[simp] theorem takeAllRouted_still (s : State) :
    (takeAllRouted s).still = s.still := by
  unfold takeAllRouted
  try dsimp only
  repeat' split
  all_goals first | (simp; done) | (simp_all; done) | grind

@[simp] theorem searchByte_still (b : Byte) (s : State) :
    (searchByte b s).still = s.still := by
  unfold searchByte
  try dsimp only
  repeat' split
  all_goals first | (simp; done) | (simp_all; done) | grind

@[simp] theorem enterLocked_still (s : State) :
    (enterLocked s).still = s.still := by
  unfold enterLocked
  try dsimp only
  repeat' split
  all_goals first | (simp; done) | (simp_all; done) | grind

@[simp] theorem verifyBytes_still (b0 b1 : Byte) (s : State) :
    (verifyBytes b0 b1 s).still = s.still := by
  unfold verifyBytes
  try dsimp only
  repeat' split
  all_goals first | (simp; done) | (simp_all; done) | grind

@[simp] theorem fifoAppend_still (l : List FifoItem) (s : State) :
    (fifoAppend l s).still = s.still := by
  unfold fifoAppend
  try dsimp only
  repeat' split
  all_goals first | (simp; done) | (simp_all; done) | grind

@[simp] theorem countOverflow_still (n : Nat) (s : State) :
    (countOverflow n s).still = s.still := by
  unfold countOverflow
  try dsimp only
  repeat' split
  all_goals first | (simp; done) | (simp_all; done) | grind

@[simp] theorem setAssembly_still (a : LaneState) (s : State) :
    (setAssembly a s).still = s.still := by
  unfold setAssembly
  try dsimp only
  repeat' split
  all_goals first | (simp; done) | (simp_all; done) | grind

@[simp] theorem pushBody_still (b : LaneBody) (x : Byte) (s : State) :
    (pushBody b x s).2.still = s.still := by
  unfold pushBody
  try dsimp only
  repeat' split
  all_goals first | (simp; done) | (simp_all; done) | grind

@[simp] theorem beginBody_still (kind dest src len : Byte) (s : State) :
    (beginBody kind dest src len s).still = s.still := by
  unfold beginBody
  try dsimp only
  repeat' split
  all_goals first | (simp; done) | (simp_all; done) | grind

@[simp] theorem routeTo_still (r : Route) (b : LaneBody) (ref : AC) (s : State) :
    (routeTo r b ref s).still = s.still := by
  unfold routeTo
  try dsimp only
  repeat' split
  all_goals first | (simp; done) | (simp_all; done) | grind

@[simp] theorem routePacket_still (b : LaneBody) (ref : AC) (s : State) :
    (routePacket b ref s).still = s.still := by
  unfold routePacket
  try dsimp only
  repeat' split
  all_goals first | (simp; done) | (simp_all; done) | grind

@[simp] theorem completePacket_still (b : LaneBody) (a : Byte) (x : Byte) (ref : AC) (s : State) :
    (completePacket b a x ref s).still = s.still := by
  unfold completePacket
  try dsimp only
  repeat' split
  all_goals first | (simp; done) | (simp_all; done) | grind

@[simp] theorem bodyByte_still (b : LaneBody) (x : Byte) (ref : AC) (s : State) :
    (bodyByte b x ref s).still = s.still := by
  unfold bodyByte
  try dsimp only
  repeat' split
  all_goals first | (simp; done) | (simp_all; done) | grind

@[simp] theorem laneByte_still (ref : AC) (s : State) (x : Byte) :
    (laneByte ref s x).still = s.still := by
  unfold laneByte
  try dsimp only
  repeat' split
  all_goals first | (simp; done) | (simp_all; done) | grind

@[simp] theorem laneFrame_still (ref : AC) (aux : Vector Byte 4) (s : State) :
    (laneFrame ref aux s).still = s.still :=
  foldl_still _ (fun t x => laneByte_still ref t x) _ s

@[simp] theorem breakPacket_still (s : State) :
    (breakPacket s).still = s.still := by
  unfold breakPacket
  try dsimp only
  repeat' split
  all_goals first | (simp; done) | (simp_all; done) | grind

@[simp] theorem setMerger_still (m : Merger) (s : State) :
    (setMerger m s).still = s.still := by
  unfold setMerger
  try dsimp only
  repeat' split
  all_goals first | (simp; done) | (simp_all; done) | grind

@[simp] theorem startLocal_still (p : Packet) (s : State) :
    (startLocal p s).2.still = s.still := by
  unfold startLocal
  try dsimp only
  repeat' split
  all_goals first | (simp; done) | (simp_all; done) | grind

@[simp] theorem passByte_still (sent len sumA sumB : Nat) (s : State) :
    (passByte sent len sumA sumB s).2.still = s.still := by
  unfold passByte
  try dsimp only
  repeat' split
  all_goals first | (simp; done) | (simp_all; done) | grind

@[simp] theorem startPass_still (s : State) :
    (startPass s).2.still = s.still := by
  unfold startPass
  try dsimp only
  repeat' split
  all_goals first | (simp; done) | (simp_all; done) | grind

@[simp] theorem betweenByte_still (s : State) :
    (betweenByte s).2.still = s.still := by
  unfold betweenByte
  try dsimp only
  repeat' split
  all_goals first | (simp; done) | (simp_all; done) | grind

@[simp] theorem mergerByte_still (s : State) :
    (mergerByte s).2.still = s.still := by
  unfold mergerByte
  try dsimp only
  repeat' split
  all_goals first | (simp; done) | (simp_all; done) | grind

@[simp] theorem mergerFrame_still (s : State) :
    (mergerFrame s).2.still = s.still := by
  unfold mergerFrame
  try dsimp only
  repeat' split
  all_goals first | (simp; done) | (simp_all; done) | grind

@[simp] theorem settle_still (s : State) :
    (settle s).still = s.still := by
  unfold settle
  try dsimp only
  repeat' split
  all_goals first | (simp; done) | (simp_all; done) | grind

@[simp] theorem joinIfDue_still (c : Fin 4) (s : State) :
    (joinIfDue c s).still = s.still := by
  unfold joinIfDue
  try dsimp only
  repeat' split
  all_goals first | (simp; done) | (simp_all; done) | grind

@[simp] theorem openFrame_still (s : State) :
    (openFrame s).still = s.still := by
  unfold openFrame
  try dsimp only
  repeat' split
  all_goals first | (simp; done) | (simp_all; done) | grind

@[simp] theorem openBreaks_still (s : State) :
    (openBreaks s).still = s.still := by
  unfold openBreaks
  try dsimp only
  repeat' split
  all_goals first | (simp; done) | (simp_all; done) | grind

@[simp] theorem reachMoments_still (s : State) :
    (reachMoments s).still = s.still := by
  unfold reachMoments
  try dsimp only
  repeat' split
  all_goals first | (simp; done) | (simp_all; done) | grind

@[simp] theorem boundaryMoves_still (s : State) :
    (boundaryMoves s).still = s.still := by
  unfold boundaryMoves
  try dsimp only
  repeat' split
  all_goals first | (simp; done) | (simp_all; done) | grind

@[simp] theorem sampleOnce_still (gpi : Byte) (s : State) :
    (sampleOnce gpi s).still = s.still := by
  unfold sampleOnce
  try dsimp only
  repeat' split
  all_goals first | (simp; done) | (simp_all; done) | grind

@[simp] theorem enterHoldover_still (s : State) :
    (enterHoldover s).still = s.still := by
  unfold enterHoldover
  try dsimp only
  repeat' split
  all_goals first | (simp; done) | (simp_all; done) | grind

@[simp] theorem reportJudgment_still (j : FrameJudgment) (s : State) :
    (reportJudgment j s).still = s.still := by
  unfold reportJudgment
  try dsimp only
  repeat' split
  all_goals first | (simp; done) | (simp_all; done) | grind

@[simp] theorem popCommand_still (s : State) :
    (popCommand s).still = s.still := by
  unfold popCommand
  try dsimp only
  repeat' split
  all_goals first | (simp; done) | (simp_all; done) | grind

@[simp] theorem identify_still (b : List Byte) (s : State) :
    (identify b s).2.still = s.still := by
  unfold identify
  try dsimp only
  repeat' split
  all_goals first | (simp [refuse, accept, loadReply, configReply]; done) | (simp_all [refuse, accept, loadReply, configReply]; done) | grind

@[simp] theorem setLibrary_still (lp : Nat) (s : State) :
    (setLibrary lp s).still = s.still := by
  unfold setLibrary
  try dsimp only
  repeat' split
  all_goals first | (simp; done) | (simp_all; done) | grind

@[simp] theorem UnitEdit.apply_still (e : UnitEdit) (s : State) :
    (UnitEdit.apply e s).still = s.still := by
  unfold UnitEdit.apply
  try dsimp only
  repeat' split
  all_goals first | (simp; done) | (simp_all; done) | grind

@[simp] theorem unitSet_still (b : List Byte) (s : State) :
    (unitSet b s).2.still = s.still := by
  unfold unitSet
  try dsimp only
  repeat' split
  all_goals first | (simp [refuse, accept, loadReply, configReply]; done) | (simp_all [refuse, accept, loadReply, configReply]; done) | grind

@[simp] theorem resetCommandUnit_still (s : State) :
    (resetCommandUnit s).still = s.still := by
  unfold resetCommandUnit
  try dsimp only
  repeat' split
  all_goals first | (simp; done) | (simp_all; done) | grind

@[simp] theorem zeroChannelCounts_still (c : Fin 4) (s : State) :
    (zeroChannelCounts c s).still = s.still := by
  unfold zeroChannelCounts
  try dsimp only
  repeat' split
  all_goals first | (simp; done) | (simp_all; done) | grind

@[simp] theorem clearLinkCounters_still (s : State) :
    (clearLinkCounters s).still = s.still := by
  unfold clearLinkCounters
  try dsimp only
  repeat' split
  all_goals first | (simp; done) | (simp_all; done) | grind

@[simp] theorem clearCueCounters_still (s : State) :
    (clearCueCounters s).still = s.still := by
  unfold clearCueCounters
  try dsimp only
  repeat' split
  all_goals first | (simp; done) | (simp_all; done) | grind

@[simp] theorem clearReportDrops_still (s : State) :
    (clearReportDrops s).still = s.still := by
  unfold clearReportDrops
  try dsimp only
  repeat' split
  all_goals first | (simp; done) | (simp_all; done) | grind

@[simp] theorem resetBlocks_still (s : State) :
    (resetBlocks s).still = s.still := by
  unfold resetBlocks
  try dsimp only
  repeat' split
  all_goals first | (simp; done) | (simp_all; done) | grind

@[simp] theorem resetUnit_still (s : State) : (resetUnit s).still = s.still := by
  simp [resetUnit]

@[simp] theorem resetAround_still (visited : Nat) (s : State) :
    (resetAround visited s).still = s.still := by
  unfold resetAround
  split
  · simp
  · next l f h =>
    rw [visitAll_still f (cueBegun_still s visited l f h), resetUnit_still,
      visitAll_still f (cueBegun_still s visited l f h), countCue_still]
    rfl

@[simp] theorem deviceReset_still (b : List Byte) (s : State) :
    (deviceReset b s).2.still = s.still := by
  simp [deviceReset]

@[simp] theorem clearChannelCounts_still (c : Fin 4) (s : State) :
    (clearChannelCounts c s).still = s.still := by
  unfold clearChannelCounts
  try dsimp only
  repeat' split
  all_goals first | (simp; done) | (simp_all; done) | grind

@[simp] theorem clearSection_still (i : Nat) (s : State) :
    (clearSection i s).still = s.still := by
  unfold clearSection
  try dsimp only
  repeat' split
  all_goals first | (simp; done) | (simp_all; done) | grind

@[simp] theorem clearSections_still (n : Nat) (s : State) : (clearSections n s).still = s.still := by
  induction n with
  | zero => rfl
  | succ n ih => rw [clearSections, clearSection_still, ih]

@[simp] theorem statusRead_still (limit : Nat) (b : List Byte) (s : State) :
    (statusRead limit b s).2.still = s.still := by
  unfold statusRead
  try dsimp only
  repeat' split
  all_goals first | (simp [refuse, accept, loadReply, configReply]; done) | (simp_all [refuse, accept, loadReply, configReply]; done) | grind

@[simp] theorem alertSet_still (b : List Byte) (s : State) :
    (alertSet b s).2.still = s.still := by
  unfold alertSet
  try dsimp only
  repeat' split
  all_goals first | (simp [refuse, accept, loadReply, configReply]; done) | (simp_all [refuse, accept, loadReply, configReply]; done) | grind

@[simp] theorem alertClear_still (b : List Byte) (s : State) :
    (alertClear b s).2.still = s.still := by
  unfold alertClear
  try dsimp only
  repeat' split
  all_goals first | (simp [refuse, accept, loadReply, configReply]; done) | (simp_all [refuse, accept, loadReply, configReply]; done) | grind

@[simp] theorem enableChannel_still (c : Fin 4) (s : State) :
    (enableChannel c s).still = s.still := by
  unfold enableChannel
  try dsimp only
  repeat' split
  all_goals first | (simp; done) | (simp_all; done) | grind

@[simp] theorem disableChannel_still (c : Fin 4) (s : State) :
    (disableChannel c s).still = s.still := by
  unfold disableChannel
  try dsimp only
  repeat' split
  all_goals first | (simp; done) | (simp_all; done) | grind

@[simp] theorem applyChannelSet_still (c : Fin 4) (e : ConfigEdit) (s : State) :
    (applyChannelSet c e s).still = s.still := by
  unfold applyChannelSet
  try dsimp only
  repeat' split
  all_goals first | (simp; done) | (simp_all; done) | grind

@[simp] theorem channelSet_still (b : List Byte) (s : State) :
    (channelSet b s).2.still = s.still := by
  unfold channelSet
  try dsimp only
  repeat' split
  all_goals first | (simp [refuse, accept, loadReply, configReply]; done) | (simp_all [refuse, accept, loadReply, configReply]; done) | grind

@[simp] theorem channelReset_still (b : List Byte) (s : State) :
    (channelReset b s).2.still = s.still := by
  unfold channelReset
  try dsimp only
  repeat' split
  all_goals first | (simp [refuse, accept, loadReply, configReply]; done) | (simp_all [refuse, accept, loadReply, configReply]; done) | grind

@[simp] theorem cartFire_still (b : List Byte) (s : State) :
    (cartFire b s).2.still = s.still := by
  unfold cartFire
  split
  · rfl
  · rename_i c _
    split
    · rfl
    · have := requestCart_still c (field b 1 2) (clampCode (field b 3 2)).1 s
      dsimp only
      split <;> simp_all [refuse]

@[simp] theorem dirRead_still (limit : Nat) (b : List Byte) (s : State) :
    (dirRead limit b s).2.still = s.still := by
  unfold dirRead
  try dsimp only
  repeat' split
  all_goals first | (simp [refuse, accept, loadReply, configReply]; done) | (simp_all [refuse, accept, loadReply, configReply]; done) | grind

@[simp] theorem dirWrite_still (b : List Byte) (s : State) :
    (dirWrite b s).2.still = s.still := by
  unfold dirWrite
  try dsimp only
  repeat' split
  all_goals first | (simp [refuse, accept, loadReply, configReply]; done) | (simp_all [refuse, accept, loadReply, configReply]; done) | grind

@[simp] theorem dirErase_still (b : List Byte) (s : State) :
    (dirErase b s).2.still = s.still := by
  unfold dirErase
  try dsimp only
  repeat' split
  all_goals first | (simp [refuse, accept, loadReply, configReply]; done) | (simp_all [refuse, accept, loadReply, configReply]; done) | grind

@[simp] theorem applyArm_still (f : ArmFields) (s : State) :
    (applyArm f s).still = s.still := by
  unfold applyArm
  try dsimp only
  repeat' split
  all_goals first | (simp; done) | (simp_all; done) | grind

@[simp] theorem ingestArm_still (b : List Byte) (s : State) :
    (ingestArm b s).2.still = s.still := by
  unfold ingestArm
  try dsimp only
  repeat' split
  all_goals first | (simp [refuse, accept, loadReply, configReply]; done) | (simp_all [refuse, accept, loadReply, configReply]; done) | grind

@[simp] theorem disarm_still (n : Nat) (s : State) :
    (disarm n s).still = s.still := by
  unfold disarm
  try dsimp only
  repeat' split
  all_goals first | (simp; done) | (simp_all; done) | grind

@[simp] theorem ingestStop_still (b : List Byte) (s : State) :
    (ingestStop b s).2.still = s.still := by
  unfold ingestStop
  try dsimp only
  repeat' split
  all_goals first | (simp [refuse, accept, loadReply, configReply]; done) | (simp_all [refuse, accept, loadReply, configReply]; done) | grind

@[simp] theorem ringRetire_still (b : List Byte) (s : State) :
    (ringRetire b s).2.still = s.still := by
  unfold ringRetire
  try dsimp only
  repeat' split
  all_goals first | (simp [refuse, accept, loadReply, configReply]; done) | (simp_all [refuse, accept, loadReply, configReply]; done) | grind

@[simp] theorem addRecord_still (c : Fin 4) (r : BreakRecord) (s : State) :
    (addRecord c r s).still = s.still := by
  unfold addRecord
  try dsimp only
  repeat' split
  all_goals first | (simp; done) | (simp_all; done) | grind

@[simp] theorem loadFirst_still (b : List Byte) (s : State) :
    (loadFirst b s).2.still = s.still := by
  unfold loadFirst
  try dsimp only
  repeat' split
  all_goals first | (simp [refuse, accept, loadReply, configReply]; done) | (simp_all [refuse, accept, loadReply, configReply]; done) | grind

@[simp] theorem breakLoadFirst_still (c : Command) (s : State) :
    (breakLoadFirst c s).2.still = s.still := by
  unfold breakLoadFirst
  try dsimp only
  repeat' split
  all_goals first | (simp [refuse, accept, loadReply, configReply]; done) | (simp_all [refuse, accept, loadReply, configReply]; done) | grind

@[simp] theorem appendItems_still (c : Fin 4) (n : Nat) (p : LoadPart) (s : State) :
    (appendItems c n p s).still = s.still := by
  unfold appendItems
  try dsimp only
  repeat' split
  all_goals first | (simp; done) | (simp_all; done) | grind

@[simp] theorem loadContinuation_still (b : List Byte) (s : State) :
    (loadContinuation b s).2.still = s.still := by
  unfold loadContinuation
  try dsimp only
  repeat' split
  all_goals first | (simp [refuse, accept, loadReply, configReply]; done) | (simp_all [refuse, accept, loadReply, configReply]; done) | grind

@[simp] theorem abortReply_still (a : AbortAnswer) (s : State) :
    (abortReply a s).2.still = s.still := by
  cases a <;> rfl

@[simp] theorem breakAbort_still (b : List Byte) (s : State) :
    (breakAbort b s).2.still = s.still := by
  unfold breakAbort
  try dsimp only
  repeat' split
  all_goals first | (simp [refuse, accept, loadReply, configReply]; done) | (simp_all [refuse, accept, loadReply, configReply]; done) | grind

@[simp] theorem breakCancel_still (b : List Byte) (s : State) :
    (breakCancel b s).2.still = s.still := by
  unfold breakCancel
  try dsimp only
  repeat' split
  all_goals first | (simp [refuse, accept, loadReply, configReply]; done) | (simp_all [refuse, accept, loadReply, configReply]; done) | grind

@[simp] theorem breakList_still (limit : Nat) (b : List Byte) (s : State) :
    (breakList limit b s).2.still = s.still := by
  unfold breakList
  try dsimp only
  repeat' split
  all_goals first | (simp [refuse, accept, loadReply, configReply]; done) | (simp_all [refuse, accept, loadReply, configReply]; done) | grind

@[simp] theorem breakFire_still (b : List Byte) (s : State) :
    (breakFire b s).2.still = s.still := by
  unfold breakFire
  split
  · rfl
  · rename_i c _
    split
    · rfl
    · split
      · rfl
      · rename_i r _
        have := fireRecord_still c r s
        split <;> simp_all [refuse]

@[simp] theorem trimVoice_still (level rate : Nat) (p : Nat × State) (v : Fin 16) :
    (trimVoice level rate p v).2.still = p.2.still := by
  unfold trimVoice
  simp

@[simp] theorem voiceTrim_still (b : List Byte) (s : State) :
    (voiceTrim b s).2.still = s.still := by
  unfold voiceTrim
  split
  · rfl
  · split
    · rfl
    · exact foldl_keeps (fun p : Nat × State => p.2.still) _ (fun p v => by simp) _ (0, s)

@[simp] theorem gpiSet_still (b : List Byte) (s : State) :
    (gpiSet b s).2.still = s.still := by
  unfold gpiSet
  try dsimp only
  repeat' split
  all_goals first | (simp [refuse, accept, loadReply, configReply]; done) | (simp_all [refuse, accept, loadReply, configReply]; done) | grind

@[simp] theorem gpoSet_still (b : List Byte) (s : State) :
    (gpoSet b s).2.still = s.still := by
  unfold gpoSet
  try dsimp only
  repeat' split
  all_goals first | (simp [refuse, accept, loadReply, configReply]; done) | (simp_all [refuse, accept, loadReply, configReply]; done) | grind

@[simp] theorem clearLost_still (s : State) :
    (clearLost s).still = s.still := by
  unfold clearLost
  try dsimp only
  repeat' split
  all_goals first | (simp; done) | (simp_all; done) | grind

@[simp] theorem asrunFetch_still (h : CmdHeader) (b : List Byte) (s : State) :
    (asrunFetch h b s).2.still = s.still := by
  unfold asrunFetch
  try dsimp only
  repeat' split
  all_goals first | (simp [refuse, accept, loadReply, configReply]; done) | (simp_all [refuse, accept, loadReply, configReply]; done) | grind

@[simp] theorem asrunDiscard_still (b : List Byte) (s : State) :
    (asrunDiscard b s).2.still = s.still := by
  unfold asrunDiscard
  try dsimp only
  repeat' split
  all_goals first | (simp [refuse, accept, loadReply, configReply]; done) | (simp_all [refuse, accept, loadReply, configReply]; done) | grind

end Sys2Proof.Machine
end

