-- ==== Sys2Proof/Laws/Maps.lean ====
section
/-! SUPPORT. Sparse maps in canonical form: reads after writes, the form kept, and clip memory and the
directory as two of them. -/

namespace Sys2Proof.Machine

section Maps
variable {α : Type} [DecidableEq α] (d : α)

/-- Keys strictly rising. -/
abbrev Rising (l : List (Nat × α)) : Prop := l.Pairwise (fun a b => a.1 < b.1)

omit [DecidableEq α] in
theorem lookupD_of_keys_above (l : List (Nat × α)) (n : Nat) (h : ∀ p ∈ l, n < p.1) :
    lookupD d l n = d := by
  induction l with
  | nil => rfl
  | cons p l ih =>
    obtain ⟨k, x⟩ := p
    have hk : n < k := h (k, x) (by simp)
    rw [lookupD, if_neg (by omega)]
    exact ih fun q hq => h q (by simp [hq])

theorem mem_storeD {l : List (Nat × α)} {n : Nat} {v : α} {p : Nat × α}
    (h : p ∈ storeD d l n v) : p = (n, v) ∨ p ∈ l := by
  induction l with
  | nil => simp only [storeD] at h; split at h <;> simp_all
  | cons q l ih =>
    obtain ⟨k, x⟩ := q
    simp only [storeD] at h
    split at h
    · split at h <;> simp_all
    · split at h
      · split at h
        · exact .inr (List.mem_cons_of_mem _ h)
        · rcases List.mem_cons.1 h with h | h <;> simp [h]
      · rcases List.mem_cons.1 h with h | h
        · simp [h]
        · rcases ih h with h | h <;> simp [h]

theorem storeD_rising {l : List (Nat × α)} (n : Nat) (v : α) (h : Rising l) :
    Rising (storeD d l n v) := by
  induction l with
  | nil => simp only [storeD]; split <;> simp [Rising]
  | cons q l ih =>
    obtain ⟨k, x⟩ := q
    have hk := List.pairwise_cons.1 h
    simp only [storeD]
    split
    · next hn =>
      split
      · exact h
      · refine List.pairwise_cons.2 ⟨fun p hp => ?_, h⟩
        rcases List.mem_cons.1 hp with rfl | hp
        · exact hn
        · exact Nat.lt_trans hn (hk.1 p hp)
    · split
      · next hn =>
        subst hn
        split
        · exact hk.2
        · exact List.pairwise_cons.2 ⟨hk.1, hk.2⟩
      · next h1 h2 =>
        refine List.pairwise_cons.2 ⟨fun p hp => ?_, ih hk.2⟩
        rcases mem_storeD d hp with rfl | hp
        · exact lt_of_le_of_ne (Nat.le_of_not_lt h1) (fun e => h2 e.symm)
        · exact hk.1 p hp

theorem storeD_canonical {l : List (Nat × α)} (n : Nat) (v : α) (h : Canonical d l) :
    Canonical d (storeD d l n v) := by
  refine ⟨storeD_rising d n v h.1, ?_⟩
  have h2 := h.2
  clear h
  induction l with
  | nil => simp only [storeD]; split <;> simp_all
  | cons q l ih =>
    obtain ⟨k, x⟩ := q
    intro p hp
    simp only [storeD] at hp
    split at hp
    · split at hp
      · exact h2 p hp
      · next hv =>
        rcases List.mem_cons.1 hp with rfl | hp
        · exact hv
        · exact h2 p hp
    · split at hp
      · split at hp
        · exact h2 p (by simp [hp])
        · next hv =>
          rcases List.mem_cons.1 hp with rfl | hp
          · exact hv
          · exact h2 p (by simp [hp])
      · rcases List.mem_cons.1 hp with rfl | hp
        · exact h2 _ (by simp)
        · exact ih (fun r hr => h2 r (by simp [hr])) p hp

/-- A read after a write gives the value written at its key and leaves every other key alone. -/
theorem lookupD_storeD {l : List (Nat × α)} (n m : Nat) (v : α) (h : Rising l) :
    lookupD d (storeD d l n v) m = if m = n then v else lookupD d l m := by
  induction l with
  | nil =>
    simp only [storeD]
    split
    · split <;> simp_all [lookupD]
    · simp only [lookupD]; split <;> split <;> simp_all
  | cons q l ih =>
    obtain ⟨k, x⟩ := q
    have hk := List.pairwise_cons.1 h
    simp only [storeD]
    split
    · next hn =>
      split
      · next hv =>
        subst hv
        split
        · next hm =>
          subst hm
          rw [lookupD, if_neg (by omega)]
          exact lookupD_of_keys_above v l m fun p hp => Nat.lt_trans hn (hk.1 p hp)
        · rfl
      · simp only [lookupD]
        by_cases hm : m = n
        · simp [hm]
        · simp [hm, show ¬ n = m from fun e => hm e.symm]
    · split
      · next hn =>
        subst hn
        split
        · next hv =>
          subst hv
          by_cases hm : m = n
          · subst hm
            rw [if_pos rfl]
            exact lookupD_of_keys_above v l m fun p hp => hk.1 p hp
          · have hm' : ¬ n = m := fun e => hm e.symm
            simp [hm, hm', lookupD]
        · by_cases hm : m = n
          · simp [hm, lookupD]
          · have hm' : ¬ n = m := fun e => hm e.symm
            simp [hm, hm', lookupD]
      · next h1 h2 =>
        simp only [lookupD]
        by_cases hm : k = m
        · subst hm; simp [show ¬ k = n from fun e => h2 e.symm]
        · simp only [hm, if_false]; exact ih hk.2

end Maps

/-! ### Clip memory and the directory -/

theorem readWord_writeWord (s : State) (a b : BitVec 28) (w : Sample) (h : Memory.wf s.memory) :
    (s.writeWord a w).readWord b = if b = a then w else s.readWord b := by
  have := lookupD_storeD unwrittenWord a.toNat b.toNat w h.1.1
  simp only [State.readWord, State.writeWord, State.setMemory_memory, this]
  by_cases hb : b = a
  · simp [hb]
  · have : b.toNat ≠ a.toNat := fun e => hb (BitVec.eq_of_toNat_eq e)
    simp [hb, this]

theorem writeWord_wf (s : State) (a : BitVec 28) (w : Sample) (h : Memory.wf s.memory) :
    Memory.wf (s.writeWord a w).memory := by
  refine ⟨storeD_canonical _ _ _ h.1, fun p hp => ?_⟩
  rcases mem_storeD unwrittenWord hp with rfl | hp
  · exact a.isLt
  · exact h.2 p hp

theorem reset_memory_wf : Memory.wf State.reset.memory := by
  simp [State.reset, Memory.wf, Canonical]

theorem entry_setEntry (s : State) (n m : Nat) (e : DirEntry)
    (h : Canonical DirEntry.blank s.store.directory) :
    (s.setEntry n e).entry m = if m = n then e else s.entry m :=
  lookupD_storeD DirEntry.blank n m e h.1

theorem setEntry_canonical (s : State) (n : Nat) (e : DirEntry)
    (h : Canonical DirEntry.blank s.store.directory) :
    Canonical DirEntry.blank (s.setEntry n e).store.directory :=
  storeD_canonical DirEntry.blank n e h

end Sys2Proof.Machine
end

