-- ==== Sys2Proof/Laws/Shared.lean ====
section
/-! SUPPORT. Said once of the operations that every row shares: what each can do, and when it does
nothing. -/

namespace Sys2Proof.Machine

/-! ### What is due after a frame -/

theorem settleIngest_of_noEnding {s : State} (h : s.store.noEnding = true) : settleIngest s = s := by
  unfold settleIngest
  unfold Store.noEnding at h
  cases he : s.store.engine with
  | none => rfl
  | some g =>
    rw [he] at h
    dsimp only at h ⊢
    rw [Option.isNone_iff_eq_none] at h
    rw [h]

theorem State.settled_channel {s : State} (h : s.settled = true) (c : Fin 4) :
    s.silenceDue c = false ∧ s.recoveryDue c = false := by
  unfold State.settled at h
  simp only [allChannels, List.all_cons, List.all_nil, Bool.and_eq_true, Bool.not_eq_true'] at h
  fin_cases c <;> simp_all

/-- On a settled state the steps that follow a frame change nothing. -/
theorem settle_of_settled {s : State} (h : s.settled = true) : settle s = s := by
  have hs := settleIngest_of_noEnding (s := s) (by
    unfold State.settled at h
    exact (Bool.and_eq_true _ _ |>.mp h).1)
  have step : ∀ c, beginRecovery c (reachSilence c s) = s := fun c => by
    obtain ⟨h1, h2⟩ := s.settled_channel h c
    rw [reachSilence, if_neg (by rw [h1]; exact Bool.false_ne_true), beginRecovery,
      if_neg (by rw [h2]; exact Bool.false_ne_true)]
  simp [settle, forChannels, hs, allChannels, step]

/-! ### Alerts and as-run records -/

/-- A source whose mask bit is 0 changes nothing (R190). -/
theorem raiseAlert_masked {src : AlertSource} {s : State} (h : s.alert.mask &&& src.mask = 0) :
    raiseAlert src s = s := by rw [raiseAlert, if_pos h]

/-- A change of a source touches the alert unit only (R190, R191). -/
theorem raiseAlert_eq (src : AlertSource) (s : State) :
    raiseAlert src s = s.setAlert (raiseAlert src s).alert := by
  unfold raiseAlert
  dsimp only
  repeat' split
  all_goals rfl

/-- A record handed over touches the as-run queue and the alert unit only (R169, R170). -/
theorem asrunWrite_eq (r : AsRunRecord) (s : State) :
    asrunWrite r s =
      (s.setAsrun (asrunWrite r s).asrun).setAlert (asrunWrite r s).alert := by
  unfold asrunWrite
  repeat' (first | split | dsimp only)
  all_goals first
    | rfl
    | (generalize hx : s.setAsrun _ = t
       have := raiseAlert_eq .asrunHigh t
       rw [this]; subst hx; rfl)

/-- The queue never holds more than 256 records (R169). -/
theorem asrunWrite_length (r : AsRunRecord) (s : State) (h : s.asrun.records.length ≤ 256) :
    (asrunWrite r s).asrun.records.length ≤ 256 := by
  unfold asrunWrite
  repeat' (first | split | dsimp only)
  all_goals try rw [raiseAlert_eq]
  all_goals simp_all [Config.asrunRecords]

/-! ### Replies -/

/-- An immediate report touches the command unit only (R185). -/
theorem immediateReport_eq (dest : Byte) (code tag : Nat) (f : ErrFlag) (s : State) :
    immediateReport dest code tag f s = s.setCmd (immediateReport dest code tag f s).cmd := by
  unfold immediateReport
  split <;> rfl

/-- A reply built touches the command unit only (R183, R184). -/
theorem answer_eq (c : Command) (always : Bool) (r : Reply) (s : State) :
    answer c always r s = s.setCmd (answer c always r s).cmd := by
  unfold answer
  split <;> rfl

/-- A command row taken on a settled state executes the oldest command (R182). -/
theorem runRow_due {row : Command → Bool} {always : Bool} {f : Action} {s : State} {c : Command}
    {rest : List Command} (hs : s.settled = true) (hb : s.cmd.build = []) (hq : s.cmd.queue = c :: rest)
    (hr : row c = true) :
    runRow row always f s =
      .next (answer c always
        (limitReply (dataLimit c.header) (f c (s.setCmd { s.cmd with queue := rest })).1)
        (f c (s.setCmd { s.cmd with queue := rest })).2) := by
  have hd : s.commandDue row = true := by simp [State.commandDue, hb, hq, hr]
  rw [runRow, if_pos hd, settle_of_settled hs, executeOldest, hq]
  simp [popCommand, hq]

/-- A command row that is not due changes nothing. -/
theorem runRow_idle {row : Command → Bool} {always : Bool} {f : Action} {s : State}
    (h : s.commandDue row = false) : runRow row always f s = .next s := by
  rw [runRow, if_neg (by rw [h]; exact Bool.false_ne_true)]

end Sys2Proof.Machine
end

