-- ==== Sys2Proof/Tests/Slice0.lean ====
section
/-! SUPPORT. The model's own tests: ill-formed commands, the manual's worked figures, and for every
statement with hypotheses a state that meets them. -/

namespace Sys2Proof.Tests

open Sys2Proof.Machine Sys2Proof.Machine.Claim

set_option Elab.async false

/-! ### Well-formedness: each check refuses an ill-formed command -/

/-- A trunk frame of zeros with a good check. -/
def zeroFrame : TrunkFrame := makeFrame (Vector.replicate 16 0) (Vector.replicate 4 0)

theorem test_wellFormed_refuses_a_lag_of_3 :
    (Instr.ingressFrame zeroFrame 3).wellFormed = false
      ∧ (Instr.ingressFrame zeroFrame 2).wellFormed = true := by decide +kernel
theorem test_wellFormed_refuses_channel_4 :
    (Instr.silenceLimitReached 4).wellFormed = false ∧ (Instr.recoveryLimitReached 4).wellFormed = false
      ∧ (Instr.breakOpen 4).wellFormed = false ∧ (Instr.join 4).wellFormed = false
      ∧ (Instr.breakExpiry 4 1).wellFormed = false ∧ (Instr.timeTrigger 4).wellFormed = false
      ∧ (Instr.timeTrigger 3).wellFormed = true := by decide
theorem test_wellFormed_refuses_voice_16 :
    (Instr.voiceStart 16).wellFormed = false ∧ (Instr.voiceEnd 16).wellFormed = false
      ∧ (Instr.voiceFaded 16).wellFormed = false ∧ (Instr.voiceFaded 15).wellFormed = true := by decide
theorem test_wellFormed_refuses_break_numbers_out_of_range :
    (Instr.breakExpiry 0 0).wellFormed = false ∧ (Instr.breakExpiry 0 65536).wellFormed = false
      ∧ (Instr.breakExpiry 0 65535).wellFormed = true := by decide

/-! ### The manual's figures -/

/-- R11: KIND 0x20, DEST 17, SRC 5, LEN 1, payload 7 has the check bytes 62 and 252. -/
theorem test_packet_check_bytes :
    packetBytes ⟨0x20, 17, 5, [7]⟩ = [0xC3, 0x20, 17, 5, 1, 7, 62, 252] := by decide

/-- "Reading a 44.1 kHz clip", section 3.4: the outputs 375, −103 and −87. -/
theorem test_interpolation :
    interpolate 100 400 60211 = 375 ∧ interpolate 400 (-200) 54886 = -103
      ∧ interpolate (-200) (-50) 49561 = -87 := by decide

/-- The same table: position (9, 12,286) after 10 moves and (10, 0) after 11. -/
theorem test_position_at_44100 :
    let x := { Voice.freed with step := 60211 }
    let y := (fun v : Voice => v.advance 10)^[10] x
    y.index = 9 ∧ y.fraction = 12286 ∧ (y.advance 10).index = 10 ∧ (y.advance 10).fraction = 0 := by
  decide +kernel

/-- Section 4.4: the gain codes 3840, 3200 and 2432. -/
theorem test_multipliers :
    multiplier 3840 = 8388608 ∧ multiplier 3200 = 1572864 ∧ multiplier 2432 = 196608
      ∧ multiplier 0 = 0 := by decide

/-- "The mix in figures", section 4.5: −1,812,312, and −1,976,539 under a duck of 768. -/
theorem test_mix_figures :
    let out : VoiceOut := ⟨0, 1, 1001000, 1001000, 3200⟩
    let x := { Channel.powerOn 1 with state := .network }
    (mixResult (mixSum 1 x [out] 0 (-2000000))).1 = -1812312
      ∧ (mixResult (mixSum 1 { x with duck := 768 } [out] 0 (-2000000))).1 = -1976539 := by
  decide +kernel

/-- Saturation replaces a sum out of range (R78). -/
theorem test_mix_saturates :
    mixResult (8388608 * 8388608) = (8388607, true)
      ∧ mixResult (-8388609 * 8388608) = (-8388608, true)
      ∧ mixResult (8388607 * 8388608) = (8388607, false) := by decide

/-- "Two fades, worked", section 3.5: rates 160 and 52. -/
theorem test_fade_rates : fadeRate 3200 20 = 160 ∧ fadeRate 3840 75 = 52 ∧ fadeRate 0 1 = 1 := by decide

/-- The items of section 7.6. -/
def caseItems : List PlanItem :=
  [⟨1, .must, false, 0, 144000, 65536, 65536, 0, 0, 0, .placed, none⟩,
   ⟨2, .must, true, 4800, 1323000, 60211, 60211, 0, 0, 0, .placed, none⟩,
   ⟨3, .must, true, 0, 1344000, 65536, 65536, 0, 0, 0, .placed, none⟩,
   ⟨4, .drop, false, 0, 480000, 65536, 65536, 0, 0, 0, .placed, none⟩]

/-- Case 1 of section 7.6: factor 66,570, X = 22,882,400, no fill, item 4 dropped to fit. -/
theorem test_plan_case_1 :
    let p := makePlan ⟨20004800, some 22884800, false, caseItems, true, 75, 24000⟩
    p.factor = 66570 ∧ p.ret = 22882400 ∧ p.fillStart = none
      ∧ p.items.map (fun i => (i.step, i.dur, i.start, i.disp)) =
        [(65536, 144000, 0, .placed), (61160, 1417661, 139200, .placed),
         (66570, 1323125, 1556861, .placed), (65536, 480000, 2923205, .dropped .fit)] := by
  decide +kernel

/-- "Reply sizes, worked", section 11.2: the status record has 239 bytes, 72 in the first two
sections. -/
theorem test_status_sizes :
    (statusSections State.reset).flatten.length = 239
      ∧ ((statusSections State.reset).take 2).flatten.length = 72
      ∧ fitting 92 (statusSections State.reset) = 2 := by decide +kernel

/-- "The ring over a day", section 2.7: word 200,000 of clip 102 stands at 267,914,560. -/
theorem test_ring_address :
    let s := State.reset.setStore { Store.powerOn with lp := 4088 }
    (s.wordAddress { DirEntry.blank with region := .ring, firstPage := 4093 } 200000).toNat
      = 267914560 := by decide +kernel

/-- The worked late trigger of section 8.2: lateness 96,000 and 96,001, and due 64 frames ahead. -/
theorem test_late_trigger :
    lateness 29900000 29995936 = 96000 ∧ lateness 29900000 29995937 = 96001
      ∧ timeDue 30000000 29999936 = true ∧ timeDue 30000000 29999935 = false := by decide

/-- R89: the signed modular comparison, at its two ends. -/
theorem test_clock_comparison :
    acBefore 0xFFFFFFFF 0 = true ∧ acBefore 0 0x7FFFFFFF = true ∧ acBefore 0 0x80000000 = false
      ∧ acBefore 5 5 = false := by decide

/-- Section 11.5: a directory entry has 48 bytes, a configuration 35, a break summary 38. -/
theorem test_record_sizes :
    (entryBytes 0 DirEntry.blank).length = 48 ∧ (configBytes (.powerOn 0)).length = 35
      ∧ (itemBytes ⟨0, .must, false, 0, 0, none, none⟩).length = 16
      ∧ (identityRecord State.reset).length = 16 := by decide +kernel

/-- Case 2 of section 7.6: nothing squeezed or dropped, a fill from 23,408,005, X = 24,322,400. -/
theorem test_plan_case_2 :
    let p := makePlan ⟨20004800, some 24324800, false, caseItems, true, 75, 24000⟩
    p.factor = 65536 ∧ p.ret = 24322400 ∧ p.fillStart = some 23408005
      ∧ p.items.all (fun i => i.disp == .placed) = true := by decide +kernel

/-! ### Helpers -/

/-- The next state of an outcome. -/
def nextOf : Host.Outcome State Fault Refusal → Option State
  | .next s => some s
  | .fault _ => none
  | .refused _ => none

/-- The row answers a next state with a property. -/
def after (i : Instr) (s : State) (p : State → Bool) : Bool := (nextOf (exec i s)).any p

/-- A command header with ACK. -/
def hdr (code : Nat) : CmdHeader := ⟨code, true, false, 0x1234, 4096, 0⟩

/-- The state with one command waiting. -/
def withCommand (s : State) (code : Nat) (body : List Byte) : State :=
  s.setCmd { s.cmd with queue := [⟨5, hdr code, body⟩] }

/-- A row runs the waiting command to this reply and state. -/
abbrev runs (i : Instr) (s : State) (code : Nat) (body : List Byte) (r : Reply) (t : State) : Prop :=
  ready (withCommand s code body) 5 (hdr code) body []
    ∧ nextOf (exec i (withCommand s code body)) = some (replied 5 (hdr code) r t)

/-- The state with one cue packet waiting. -/
def withCue (s : State) (payload : List Byte) (ref : AC) : State :=
  s.setCmd { s.cmd with inbox := [⟨.cue, 5, 5, payload, ref⟩] }

/-- A part LOCKED since reset. -/
def lockedPart : State := State.reset.setRx { State.reset.rx with lock := .locked }

/-- Clip 7: a READY mono library clip of 5,000 clip frames. -/
def clip7 : DirEntry := { DirEntry.blank with state := .ready, length := 5000, hold := 2 }

/-- The part with clip 7, channel 1 enabled in NETWORK. -/
def aired : State :=
  let s := State.reset.setEntry 7 clip7
  s.setCh 1 { s.ch 1 with state := .network, config := { (s.ch 1).config with enable := true } }

/-- Break 9 of channel 1: MANUAL, one MUST item of clip 7. -/
def break9 : BreakRecord :=
  { number := 9, trigger := .manual, window := 0, netLevel := 0, fillClip := none, expiry := none
    items := [⟨7, .must, false, 3840, 0, none, none⟩], state := .pending, start := none
    deadline := none, plan := none, run := none }

/-- The part with break 9 waiting on channel 1. -/
def loaded (r : BreakRecord) : State := aired.setCh 1 { aired.ch 1 with queue := [r] }

/-- A plan of break 9 on voices 3 and 4 that returns in the frame with AC x. -/
def plan9 (x : AC) : Plan :=
  { hard := false, window := 0, joinLen := 2400, late := false
    items := [⟨1, .must, false, 0, 5000, 65536, 65536, 5000, 0, 0, .placed, none⟩], factor := 65536
    itemsEnd := 5000, fillStart := none, ret := x, voices := some (3, 4) }

/-- Break 9 in flight, with item 1 sounding on voice 3. -/
def flying (st : RecState) (x : AC) : BreakRecord :=
  { break9 with
    state := st, start := some 0, plan := some (plan9 x)
    run := some ⟨[⟨.item 1 1, 3, .sounding, .none, some 0, none, none⟩], .time⟩ }

/-- The part with break 9 ON_AIR on channel 1, clip 7 playing on voice 3. -/
def onAirPart (x : AC) : State :=
  let s := (loaded (flying .onAir x)).setVoice 3 { Voice.freed with
    state := .playing, owner := some ⟨1, .brk⟩, clip := some 7, step := 65536, code := 3840
    ramp := some ⟨3840, 1, 0, false⟩, startAC := some 0 }
  let s := s.setCh 1 { s.ch 1 with state := .onBreak, gain := 0, gainTarget := 0 }
  s.setClock { s.clock with ac := 100, noneFormed := false }

/-! ### The lane and the trunk -/

/-- A unit with address 5. -/
def unit5 : State := State.reset.setLane { State.reset.lane with unitAddr := 5 }

/-- Payloads of 0 and 200 bytes for the unit are routed with the reference frame of their last byte, four
bytes to a frame. -/
theorem witness_packet_is_routed :
    let p : Packet := ⟨0x20, 5, 9, []⟩
    let q : Packet := ⟨0x10, 5, 9, List.replicate 200 0xC3⟩
    let refs (n : Nat) : List AC := (List.range n).map fun k => BitVec.ofNat 32 (70 + k / 4)
    let parsed (p : Packet) (n : Nat) : State :=
      ((packetBytes p).zip (refs n)).foldl (fun t q => laneByte q.2 t q.1) unit5
    unit5.lane.assembly = .idle ∧ p.dest = unit5.lane.unitAddr ∧ unit5.lane.unitAddr.toNat = 5
      ∧ p.payload.length = 0 ∧ q.payload.length = 200
      ∧ (refs 7).length = (packetBytes p).length ∧ (refs 7).getLast? = some 71
      ∧ (refs 207).length = (packetBytes q).length ∧ (refs 207).getLast? = some 121
      ∧ parsed p 7 = unit5.setCmd { unit5.cmd with inbox := [⟨.command, 5, 9, [], 71⟩] }
      ∧ parsed q 207
          = unit5.setCmd { unit5.cmd with inbox := [⟨.cue, 5, 9, List.replicate 200 0xC3, 121⟩] } := by
  decide +kernel

/-- A packet of 200 bytes for another unit, into a FIFO with exactly its room left. -/
theorem witness_passed_packet :
    let p : Packet := ⟨0x20, 6, 9, List.replicate 200 1⟩
    let s := unit5.setTx { unit5.tx with fifo := List.replicate 305 (.byte 0) }
    let t := unit5.setTx { unit5.tx with fifo := (packetBytes p).map .byte }
    addressDecision unit5.lane.unitAddr unit5.lane.groupAddr p.dest = .pass
      ∧ fifoDepth s.tx.fifo + p.payload.length + 7 = 512
      ∧ ((packetBytes p).foldl (laneByte 77) s).tx.fifo
          = List.replicate 305 (.byte 0) ++ (packetBytes p).map .byte
      ∧ t.tx.merger = .between ∧ t.alert.ready = none ∧ t.cmd.replies = []
      ∧ sendBytes 207 t = (packetBytes p, unit5) := by decide +kernel

/-- A reply waits while the FIFO holds 300 bytes; a build area holds a packet, with 15 and with 16
packets queued. -/
theorem witness_replies :
    let p : Packet := ⟨0x30, 6, 9, [1, 2]⟩
    let s := unit5.setTx { unit5.tx with fifo := List.replicate 300 (.byte 0) }
    let s := s.setCmd { s.cmd with replies := [p] }
    let b (n : Nat) := unit5.setCmd { unit5.cmd with build := [p], replies := List.replicate n p }
    s.tx.merger = .between ∧ s.alert.ready = none ∧ fifoDepth s.tx.fifo = 300
      ∧ (sendBytes 9 s).1 = packetBytes p ∧ (sendBytes 9 s).2.cmd.replies = []
      ∧ nextOf (exec .replyPacketQueued (b 15))
          = some (unit5.setCmd { unit5.cmd with replies := List.replicate 16 p })
      ∧ nextOf (exec .replyPacketQueued (b 16)) = some (b 16) := by decide +kernel

theorem witness_hunt_and_verify :
    let s := State.reset.setRx { State.reset.rx with prevByte := some 0x9C }
    let v (n : Nat) := State.reset.setRx { State.reset.rx with lock := .verify, verifyRun := n }
    s.rx.lock = .search ∧ (v 3).rx.lock = .verify ∧ (v 3).settled = true
      ∧ (nextOf (exec (.syncFound 0x63) s)).map (fun t => (t.rx.lock, t.rx.verifyRun))
          = some (.verify, 1)
      ∧ (nextOf (exec (.syncFound 0x62) s)).map (fun t => (t.rx.lock, t.rx.prevByte))
          = some (.search, some 0x62)
      ∧ (nextOf (exec (.verifyFrame 0x9C 0x63) (v 2))).map (fun t => (t.rx.lock, t.rx.verifyRun))
          = some (.verify, 3)
      ∧ (nextOf (exec (.verifyFrame 0x9C 0x63) (v 3))).map (fun t => t.rx.lock) = some .locked
      ∧ (nextOf (exec (.verifyFrame 0x9C 0x9C) (v 3))).map (fun t => (t.rx.lock, t.rx.prevByte))
          = some (.search, some 0x9C) := by decide +kernel

/-- A frame of ones with a good check, one with a bad check, and one without its sync. -/
def goodFrame : TrunkFrame := makeFrame (Vector.replicate 16 1) (Vector.replicate 4 0)
def badFrame : TrunkFrame := { goodFrame with check := goodFrame.check + 1 }
def missFrame : TrunkFrame := { goodFrame with sync1 := 0 }

theorem witness_good_frame :
    (quietLock lockedPart ∧ checkHolds goodFrame = true ∧ goodFrame.aux = Vector.replicate 4 0)
      ∧ nextOf (exec (.ingressFrame goodFrame 2) lockedPart) = some
        ((lockedPart.setRx { lockedPart.rx with held := goodFrame.slots }).setTx { lockedPart.tx with
          transit := [⟨1, goodFrame.slots, true⟩], lastCarrying := some 1 }) := by
  decide +kernel

theorem witness_failed_frames :
    (quietLock lockedPart ∧ checkHolds badFrame = false ∧ missFrame.sync1 ≠ 0x63
      ∧ lockedPart.rx.missRun = 0)
      ∧ (nextOf (exec (.ingressFrame badFrame 0) lockedPart)).map (fun t => (t.rx, t.tx.transit))
          = some ({ lockedPart.rx with checkFail := 1 }, [⟨3, Vector.replicate 16 0, false⟩])
      ∧ (nextOf (exec (.ingressFrame missFrame 0) lockedPart)).map (fun t => t.rx)
          = some { lockedPart.rx with missRun := 1, syncMiss := 1, syncSlip := true } := by
  decide +kernel

/-- R14: a packet passed on with one of four payload bytes arrived, one of them taken only, and one in
HEADER, each broken by a failed check, a first missed sync and the sync that ends the lock. -/
theorem witness_broken_packets :
    let b : LaneBody := ⟨0x20, 6, 9, 4, false, false, true, [1], 0, 0, none⟩
    let s (a : LaneState) (miss : Nat) : State := (lockedPart.setLane { lockedPart.lane with
      assembly := a }).setRx { lockedPart.rx with missRun := miss }
    let seen (f : TrunkFrame) (a : LaneState) (miss : Nat) :=
      (nextOf (exec (.ingressFrame f 0) (s a miss))).map fun t =>
        (t.lane.assembly, t.lane.broken, t.tx.fifo)
    (lockedLane (s (.body b) 0) ∧ lockedLane (s (.header [0xC3, 1]) 1))
      ∧ [(badFrame, 0), (missFrame, 0), (missFrame, 1)].all (fun q =>
          seen q.1 (.body b) q.2 == some (.idle, 1, [.mark 5])
            && seen q.1 (.body { b with pushing := false }) q.2 == some (.idle, 1, [])
            && seen q.1 (.header [0xC3, 1]) q.2 == some (.idle, 1, [])
            && seen q.1 .idle q.2 == some (.idle, 0, [])) = true := by decide +kernel

/-- R13: the last bytes of a packet, in a frame that carries AC 1, give it that reference frame. -/
theorem witness_frame_brings_its_bytes :
    let p : Packet := ⟨0x20, 5, 9, []⟩
    let s := lockedPart.setLane { lockedPart.lane with unitAddr := 5 }
    let s := ((packetBytes p).take 4).foldl (laneByte 0) s
    let f := makeFrame (Vector.replicate 16 1)
      (Vector.ofFn fun k : Fin 4 => (packetBytes p).getD (4 + k.val) 0)
    lockedLane s ∧ checkHolds f = true
      ∧ (nextOf (exec (.ingressFrame f 2) s)).map (fun t => (t.cmd.inbox, t.lane.assembly))
          = some ([⟨.command, 5, 9, [], 1⟩], .idle) := by decide +kernel

theorem witness_second_miss :
    let s := lockedPart.setRx { lockedPart.rx with missRun := 1 }
    let s := s.setTx { s.tx with mode := .follow, awaitFirst := false }
    quietLock s ∧ s.rx.missRun ≠ 0
      ∧ (nextOf (exec (.ingressFrame missFrame 0) s)).map
          (fun t => (t.rx.lock, t.tx.mode, t.tx.awaitFirst, t.tx.transit, t.rx.lockLoss))
          = some (.search, .holdover, true, [], 1) := by
  decide +kernel

/-- An ingest of slot 1 into clip 3, 10 words in. -/
def ingesting : Ingest := ⟨⟨3, 1, 1, 0⟩, 10, 0, none, none, [], none⟩
def ingestPart (e : Option IngestOutcome) : State :=
  let s := lockedPart.setEntry 3 { DirEntry.blank with state := .filling, firstPage := 2 }
  s.setStore { s.store with engine := some { ingesting with ending := e } }

theorem witness_ingest_captures :
    let s := ingestPart none
    (s.rx.lock = .locked ∧ s.settled = true ∧ s.formed ∧ s.cmd.inbox = []
      ∧ s.store.engine = some ingesting ∧ ingesting.words % 65536 ≠ 0)
      ∧ (nextOf (exec (.ingressFrame goodFrame 0) s)).map
          (fun t => (t.memory, t.store.engine.map fun g => g.words))
          = some ([(131082, 1)], some 11) := by decide +kernel

theorem witness_ingest_ends :
    [(Instr.ingestLimit, IngestOutcome.limit), (.ingestRegionEnd, .regionEnd),
        (.ingestCueStop, .cueStop)].all (fun p =>
      (nextOf (exec p.1 (ingestPart (some p.2)))).map (fun t =>
        (t.entry 3, t.store.engine, t.store.lastReport)) ==
        some ({ DirEntry.blank with state := .ready, firstPage := 2, length := 10 }, none,
          ⟨3, p.2, 10⟩)) = true := by decide +kernel

/-- Channels 0 and 1 enabled in NETWORK, a frame of ones to be carried. -/
def resting : State :=
  let s := aired.setTx { aired.tx with transit := [⟨4, Vector.replicate 16 1, true⟩] }
  s.setClock { s.clock with ac := 31, noneFormed := false }

theorem witness_follow_frame :
    atRest resting
      ∧ (nextOf (exec (.egressFrameFollow 0) resting)).map (fun t =>
          (t.tx.sent, t.tx.mode, t.tx.timingSlip, t.clock.ac))
          = some (some (quietFrame (Vector.replicate 16 1)), .follow, 1, 32) := by
  decide +kernel

theorem witness_holdover_frames :
    let s := resting.setTx { resting.tx with awaitFirst := false }
    atRest resting ∧ atRest s ∧ s.tx.mode = .holdover ∧ resting.tx.awaitFirst = true
      ∧ (nextOf (exec (.holdoverPeriodExpiry 0) s)).map (fun t => (t.tx.sent, t.clock.ac))
          = some (some (quietFrame (Vector.replicate 16 0)), 32)
      ∧ (nextOf (exec (.firstHoldoverFrame 0) resting)).map (fun t => (t.tx.sent, t.tx.awaitFirst))
          = some (some (quietFrame (Vector.replicate 16 0)), false) := by
  decide +kernel

/-- Channel 1 with a voice of "The mix in figures" on its left side and one at full scale on its right,
and a channel 2 voice. -/
def mixing : State :=
  aired.setForming { Forming.start with
    opened := true
    outputs := [⟨0, 1, 1001000, 8388607, 3200⟩, ⟨4, 2, 5, 5, 3840⟩, ⟨5, 1, 0, 8388607, 3840⟩] }

theorem witness_mix :
    let x := mixing.ch 1
    let slots : Vector Sample 16 := (Vector.replicate 16 7).setIfInBounds x.config.slotL
      (BitVec.ofInt 24 (-2000000))
    let m := mixChannel 1 (some slots) slots mixing
    (x.state = .network ∧ x.config.slotL < 16 ∧ x.config.slotR < 16
        ∧ x.config.slotL ≠ x.config.slotR ∧ x.saturation = 0 ∧ (mixing.ch 2).state = .halted)
      ∧ (slotAt m.1 x.config.slotL).toInt = -1812312 ∧ (slotAt m.1 x.config.slotR).toInt = 8388607
      ∧ slotAt m.1 15 = 7 ∧ (m.2.ch 1).saturation = 1
      ∧ mixChannel 2 (some slots) slots mixing = (slots, mixing) := by decide +kernel

theorem witness_boundary_moves :
    let x := { aired.ch 1 with
      config := { (aired.ch 1).config with duckDepth := 720, duckRate := 16 }
      gain := 3820, gainTarget := 3840, gainRate := 52, duck := 700 }
    let s := (aired.setCh 1 x).setGpiLine 5 ⟨true, 0, .micLive 1⟩
    let s := s.setClock { s.clock with ac := 31, noneFormed := false }
    s.nextAC.toNat % 32 = 0 ∧ (∀ c : Fin 4, (s.ch c).state ≠ .joining ∧ (s.ch c).state ≠ .emergency)
      ∧ boundaryMoves s = s.setCh 1 { x with
          gain := 3840, duck := 716 }
      ∧ boundaryMoves (s.setGpiLine 5 ⟨false, 0, .micLive 1⟩)
          = (s.setGpiLine 5 ⟨false, 0, .micLive 1⟩).setCh 1 { x with
            gain := 3840, duck := 684 } := by decide +kernel

/-- "The mix in figures" sent: a cart of channel 1 whose left sample is 1,001,000 plays in NETWORK under
the code 3200, in a frame that is a boundary and in one that is not, in FOLLOW and in HOLDOVER. -/
def cartMix (ac : AC) : State :=
  let s := (aired.setEntry 7 { clip7 with layout := .stereo }).setVoice 6 { Voice.freed with
    state := .playing, owner := some ⟨1, .cart⟩, clip := some 7, step := 65536, code := 3200
    ramp := some ⟨3200, 1, 0, false⟩ }
  let s := s.setMemory [(0, 1001000), (2, 1001000)]
  let s := (s.setVoice 2 { Voice.freed with
    state := .primed, owner := some ⟨1, .cart⟩, clip := some 7, startFrame := some 900 })
  let s := s.setTx { s.tx with transit := [⟨4, Vector.replicate 16 (BitVec.ofInt 24 (-2000000)), true⟩] }
  let s := s.setGpiLine 5 ⟨true, 0, .micLive 1⟩
  let s := s.setCh 1 { s.ch 1 with
    duck := 760, config := { (s.ch 1).config with duckDepth := 768, duckRate := 8 } }
  s.setClock { s.clock with ac := ac, noneFormed := false }

/-- In the boundary frame nothing else moves, the voices are steady, the slots are apart, and two rows are
due; so in the frame after it. -/
theorem witness_egress_mix : playingOn (cartMix 31) := by decide +kernel
theorem witness_egress_mix_voices :
    (∀ v : Fin 16, voiceSteady (cartMix 31) v)
      ∧ (∀ v : Fin 16, ((cartMix 31).voice v).state = .playing →
        ((cartMix 31).voice v).owner.isSome = true) := by decide +kernel
theorem witness_egress_mix_slots :
    (∀ c : Fin 4, ((cartMix 31).ch c).state ≠ .halted → c = 1)
      ∧ ((cartMix 31).ch 1).config.slotL < 16 ∧ ((cartMix 31).ch 1).config.slotR < 16
      ∧ ((cartMix 31).ch 1).config.slotL ≠ ((cartMix 31).ch 1).config.slotR
      ∧ (cartMix 31).tx.awaitFirst = true := by decide +kernel
theorem witness_egress_mix_off_boundary : playingOn (cartMix 32) := by decide +kernel

theorem test_egress_mix :
    let left (t : State) : Option Int :=
      t.tx.sent.map fun f => (slotAt f.slots ((cartMix 31).ch 1).config.slotL).toInt
    after (.egressFrameFollow 0x20) (cartMix 31) (fun t => left t == some (-1976539)
          && (t.voice 6).index == 1 && (t.ch 1).duck == 768
          && t.tx.sent.map (fun f => slotAt f.slots 15) == some (BitVec.ofInt 24 (-2000000))) = true
      ∧ after (.egressFrameFollow 0x20) (cartMix 32) (fun t => (t.ch 1).duck == 760
          && left t == some (roundMix (1001000 * multiplier 2440 - 2000000 * 8388608))) = true
      ∧ after (.firstHoldoverFrame 0x20) (cartMix 31) (fun t =>
          left t == some (roundMix (1001000 * multiplier 2432))) = true := by decide +kernel

theorem test_power_on :
    after (.powerOnReset 240 0x81) aired (fun t =>
      t.lane.unitAddr == 0 && t.lane.straps == 240 && t.clock.ac == 0 && !t.clock.noneFormed
        && (t.gpiLine 7).run == 1 && (t.gpiLine 6).run == 0 && t.chans == State.reset.chans
        && t.tx.sent == some (quietFrame (Vector.replicate 16 0))) = true := by decide +kernel

/-! ### Silence and voices -/

/-- Channel 1 with its silence limit just reached, and with a recovery just begun. -/
def silent (auto : Bool) : State :=
  let x := aired.ch 1
  aired.setCh 1 { x with
    config := { x.config with silLimit := 3, emClip := some 7, autoFill := auto }
    monitor := { x.monitor with silentCount := 3, limitReached := true } }
def covering : State :=
  let x := aired.ch 1
  let s := aired.setVoice 6 { Voice.freed with
    state := .playing, owner := some ⟨1, .emergency⟩, clip := some 7, code := 3840 }
  s.setCh 1 { x with
    state := .emergency, gain := 0, gainTarget := 0
    monitor := { x.monitor with
      phase := .covering, recoveryCount := 1500, emRecord := some ⟨6, 7, 0, some 0⟩ } }

theorem witness_silence_and_recovery :
    ((silent false).silenceDue 1 = true ∧ (silent true).silenceDue 1 = true
        ∧ ((silent true).entry 7).state = .ready ∧ (silent true).freeVoices.head? = some 0
        ∧ (silent true).eventPending 0 = false ∧ covering.recoveryDue 1 = true
        ∧ (covering.voice 6).state = .playing)
      ∧ (nextOf (exec (.silenceLimitReached 1) (silent false))).map (fun t =>
          ((t.mon 1).silence, (t.ch 1).state)) = some (true, .network)
      ∧ after (.silenceLimitReached 1) (silent true) (fun t =>
          (t.mon 1).silence && (t.ch 1).state == .emergency
            && (t.mon 1).emRecord == some ⟨0, 7, 0, none⟩ && (t.voice 0).state == .primed
            && (t.voice 0).startFrame == some 32 && (t.entry 7).hold == 3) = true
      ∧ (nextOf (exec (.recoveryLimitReached 1) covering)).map (fun t =>
          ((t.mon 1).phase, (t.ch 1).returning, (t.ch 1).gainTarget, (t.voice 6).ramp))
          = some (.recovering, true, 3840, some ⟨0, 52, 0, true⟩) := by decide +kernel

/-- Channel 1 at the end of a block with an egress peak of e, an ingress peak of i, and a silent count
of 2 under a limit of 3. -/
def judged1 (silence : Bool) (e i : Nat) (x : Channel) : State :=
  aired.setCh 1 { x with
    config := { x.config with silLimit := 3, silThreshold := 100 }
    monitor := { x.monitor with
      silentCount := 2, silence := silence, peaks := some ⟨e, i, 32⟩, recoveryCount := 9 } }

theorem witness_block_is_judged :
    let quiet := judged1 false 99 0 (aired.ch 1)
    let loud := judged1 true 100 0 (aired.ch 1)
    let fill := judged1 true 99 100 (covering.ch 1)
    let s := quiet.setClock { quiet.clock with ac := 62, noneFormed := false }
    (s.nextAC.toNat % 32 = 31 ∧ (fill.ch 1).config.autoFill = false
        ∧ (fill.mon 1).emRecord = some ⟨6, 7, 0, some 0⟩)
      ∧ (let m := (judgeBlock 1 quiet).mon 1
        m.silentCount = 3 ∧ m.limitReached = true ∧ m.silence = false ∧ m.peaks = none
          ∧ m.recoveryCount = 9)
      ∧ (let m := (judgeBlock 1 loud).mon 1
        m.silentCount = 0 ∧ m.limitReached = false ∧ m.silence = false)
      ∧ (let m := (judgeBlock 1 fill).mon 1
        m.silentCount = 3 ∧ m.limitReached = false ∧ m.silence = true ∧ m.recoveryCount = 10)
      ∧ ((afterFrame zeroFrame 0 s).mon 1).limitReached = true
      ∧ judgeBlock 1 aired = aired := by decide +kernel

/-- Voice 6 about to be handled in the frame after AC a, in a given state. -/
def atVoice6 (a : AC) (x : Voice) : State :=
  let s := (aired.setVoice 6 x).setForming { Forming.start with opened := true, cursor := 6 }
  s.setClock { s.clock with ac := a, noneFormed := false }
def cart6 : Voice :=
  { Voice.freed with owner := some ⟨1, .cart⟩, clip := some 7, step := 65536, code := 3840 }

theorem witness_voices :
    (atVoice (atVoice6 32 cart6) 6 ∧ atVoice (atVoice6 31 cart6) 6)
      ∧ (nextOf (exec (.voiceStart 6) (atVoice6 32 { cart6 with
            state := .primed, startFrame := some 33 }))).any (fun t =>
          (t.voice 6).state == .playing && (t.voice 6).startAC == some 33 && (t.voice 6).index == 1
            && t.events == [⟨.started, 6, 33, 0⟩] && t.forming.outputs.length == 1
            && t.forming.cursor == 7) = true
      ∧ (nextOf (exec (.voiceEnd 6) (atVoice6 32 { cart6 with
            state := .playing, index := 5000 }))).map (fun t =>
          ((t.voice 6).state, (t.voice 6).clip, t.events, t.forming.outputs.length))
          = some (.reserved, some 7, [⟨.ended, 6, 33, 0⟩], 0)
      ∧ (nextOf (exec (.voiceFaded 6) (atVoice6 31 { cart6 with
            state := .playing, code := 52, ramp := some ⟨0, 52, 0, true⟩ }))).map (fun t =>
          ((t.voice 6).state, (t.voice 6).code, t.events)) =
          some (.reserved, 0, [⟨.faded, 6, 32, 0⟩]) := by
  decide +kernel

/-- A loop over a clip of one clip frame may take its span off twice (R52). -/
theorem witness_positions :
    let x := { Voice.freed with step := 98304, fraction := 65535, loop := some (0, 1) }
    x.fraction < 65536 ∧ (x.advance 1).index = 0 ∧ (x.fraction + x.step) / 65536 = 2
      ∧ ({ x with loop := none }.advance 1).index = 1 := by decide +kernel

theorem witness_frames_and_fades :
    (0 < ({ Voice.freed with step := 60211 } : Voice).step)
      ∧ (fun c => moveToward c 0 (zeroRamp 4095 1).rate)^[17] 4095 = 0
      ∧ (fun c => moveToward c 3840 (levelRamp 0 3840 75).rate)^[75] 0 = 3840
      ∧ (fun c => moveToward c 3840 (levelRamp 0 3840 75).rate)^[73] 0 = 3796 := by decide +kernel

/-- A cart of channel 1 on voice 6 whose END waits, raised 10 frames before a CLOCK_SET of 5. -/
def cartEnded : State :=
  let s := aired.setVoice 6 { cart6 with state := .reserved }
  let s := s.setEvents [⟨.ended, 6, 90, 5⟩]
  s.setCh 1 { s.ch 1 with carts := [⟨6, 7, 77, 3840, some 15⟩] }

theorem witness_cart_end :
    (cartEnded.settled = true ∧ (cartEnded.voice 6).state ≠ .free
      ∧ cartEnded.asrun.records.length < 256)
      ∧ after .voiceEventDelivery cartEnded (fun t =>
          t.events == [] && (t.voice 6).state == .free && (t.ch 1).carts == []
            && t.asrun.records.map (fun r => (r.kind, r.outcome, r.clip)) == [(.cart, .full, 7)]
            && t.asrun.records.map (fun r => r.aired) == [some ⟨15, 95, 80⟩]) = true := by
  decide +kernel

/-- The fill of `covering`, on its way out, with its last event waiting. -/
def fillEnded (phase : EmPhase) (gain : Nat) (kind : EventKind) : State :=
  let s := covering.setEvents [⟨kind, 6, 90, 5⟩]
  s.setCh 1 { s.ch 1 with
    gain := gain, gainTarget := 3840, returning := true
    monitor := { (s.ch 1).monitor with phase := phase, recoveryCount := 0 } }

theorem witness_emergency_events :
    ((fillEnded .recovering 3840 .faded).settled = true
        ∧ ((fillEnded .recovering 3840 .faded).voice 6).owner = some ⟨1, .emergency⟩)
      ∧ nextOf (exec .voiceEventDelivery (fillEnded .recovering 0 .started))
          = some (((fillEnded .recovering 0 .started).setEvents []).setCh 1
            { (fillEnded .recovering 0 .started).ch 1 with
              monitor := { ((fillEnded .recovering 0 .started).ch 1).monitor with
                emRecord := some ⟨6, 7, 0, some 95⟩ } })
      ∧ after .voiceEventDelivery (fillEnded .recovering 3840 .faded) (fun t =>
          t.events == [] && t.voice 6 == Voice.freed && (t.mon 1).phase == .none
            && t.ch 1 == { (fillEnded .recovering 3840 .faded).ch 1 with
              state := .network, returning := false, emClear := false
              monitor := { ((fillEnded .recovering 3840 .faded).ch 1).monitor with
                phase := .none, emRecord := none } }
            && t.asrun.records.map (fun r => (r.kind, r.outcome, r.aired)) ==
              [(.emergency, .full, some ⟨0, 95, 95⟩)]) = true
      ∧ after .voiceEventDelivery (fillEnded .recovering 3839 .faded) (fun t =>
          (t.ch 1).state == .emergency && (t.ch 1).emClear && (t.mon 1).emRecord == none) = true
      ∧ after .voiceEventDelivery (fillEnded .yielding 0 .faded) (fun t =>
          (t.ch 1).state == .emergency && !(t.ch 1).emClear && (t.mon 1).phase == .none) = true := by
  decide +kernel

/-! ### Breaks -/

/-- The next frame opened. -/
def opened (s : State) : State := s.setForming { Forming.start with opened := true }

def prerollPart : State :=
  let s := loaded { flying .preroll 5000 with start := some 101 }
  let s := s.setCh 1 { s.ch 1 with state := .preroll, origin := some .network }
  opened (s.setClock { s.clock with ac := 100, noneFormed := false })

theorem witness_break_opens :
    (prerollPart.forming.opened = true ∧ prerollPart.openDue 1 = true
      ∧ (prerollPart.ch 1).state = .preroll)
      ∧ nextOf (exec (.breakOpen 1) prerollPart) = some (prerollPart.setCh 1 { prerollPart.ch 1 with
          state := .onBreak, origin := none, gainTarget := 0, gainRate := 52
          queue := [{ flying .onAir 5000 with start := some 101 }] }) := by decide +kernel

theorem witness_join :
    ((onAirPart 100).settled = true ∧ (onAirPart 100).joinDue 1 = true
      ∧ ((onAirPart 100).ch 1).gain ≠ 3840)
      ∧ after (.join 1) (onAirPart 100) (fun t =>
          (t.ch 1).state == .joining && (t.ch 1).gainTarget == 3840 && (t.ch 1).gainRate == 52
            && (t.voice 3).ramp == some ⟨0, 52, 0, true⟩
            && (t.ch 1).queue.map (fun r => r.state) == [.joining]) = true := by decide +kernel

/-- Break 9 with three items on voices 3 and 4 in turn, the first with a fade-out, ON_AIR; `parts` says
where they stand. -/
def three (st : RecState) (parts : List Part) : BreakRecord :=
  let item (fade : Option ItemFade) : Item := ⟨7, .must, false, 3840, 0, none, fade⟩
  let placed (n start : Nat) : PlanItem :=
    ⟨n, .must, false, 0, 5000, 65536, 65536, 5000, 0, start, .placed, none⟩
  { flying st 15000 with
    items := [item (some ⟨0, 9⟩), item none, item none]
    plan := some { plan9 15000 with items := [placed 1 0, placed 2 4000, placed 3 9000] }
    run := some ⟨parts, .close⟩ }
def part (k : Nat) (v : Fin 16) (st : RunState) : Part := ⟨.item k k, v, st, .none, none, none, none⟩
/-- The part running `three` with one event of a voice waiting, and that voice in a state. -/
def running (st : RecState) (x : ChannelState) (gain : Nat) (parts : List Part) (kind : EventKind)
    (v : Fin 16) (vs : VoiceState) : State :=
  let s := onAirPart 15000
  let s := s.setVoice 4 { s.voice 3 with state := .playing }
  let s := (s.setVoice v { s.voice v with state := vs }).setEvents [⟨kind, v, 90, 5⟩]
  s.setCh 1 { s.ch 1 with state := x, gain := gain, gainTarget := 3840, queue := [three st parts] }

theorem witness_break_events :
    let first := running .onAir .onBreak 0 [part 1 3 .primed, part 2 4 .waiting] .started 3 .playing
    let second := running .onAir .onBreak 0 [part 1 3 .sounding, part 2 4 .primed] .started 4 .playing
    let last := running .onAir .onBreak 0 [part 1 3 .sounding, part 2 4 .sounding] .ended 3 .reserved
    let more := running .onAir .onBreak 0 [part 1 3 .sounding, part 2 4 .sounding, part 3 3 .waiting]
      .ended 3 .reserved
    let parts (t : State) : List Part := (t.flight 1).toList.flatMap BreakRecord.parts
    (first.settled = true ∧ more.formed ∧ (first.voice 3).owner = some ⟨1, .brk⟩
        ∧ first.flight 1 = first.record 1 9 ∧ (more.entry 7).state = .ready)
      ∧ nextOf (exec .voiceEventDelivery first) = some ((first.setEvents []).setCh 1 { first.ch 1 with
          queue := [three .onAir [{ part 1 3 .sounding with startAC := some 95 }, part 2 4 .waiting]] })
      ∧ after .voiceEventDelivery second (fun t =>
          parts t == [{ part 1 3 .sounding with fade := .own },
            { part 2 4 .sounding with startAC := some 95 }]
          && t.voice 3 == { second.voice 3 with ramp := some ⟨0, 1, 3, true⟩ }
          && t.voice 4 == second.voice 4) = true
      ∧ nextOf (exec .voiceEventDelivery last) = some ((last.setEvents []).setCh 1 { last.ch 1 with
          queue := [three .onAir [{ part 1 3 .finished with endAC := some 95, finish := some .ended },
            part 2 4 .sounding]] })
      ∧ after .voiceEventDelivery more (fun t =>
          parts t == [{ part 1 3 .finished with endAC := some 95, finish := some .ended },
            part 2 4 .sounding, part 3 3 .primed]
          && (t.voice 3).state == .primed && (t.voice 3).startFrame == some 9000
          && (t.voice 3).step == 65536 && (t.voice 3).code == 3840 && t.store == more.store) = true := by
  decide +kernel

theorem witness_join_ends :
    let parts : List Part :=
      [{ part 1 3 .finished with startAC := some 0, endAC := some 50, finish := some .ended },
        { part 2 4 .sounding with startAC := some 60, fade := .join }, part 3 3 .notStarted]
    let s (gain : Nat) := running .joining .joining gain parts .faded 4 .reserved
    ((s 3840).settled = true ∧ (s 3840).formed ∧ ((s 3840).voice 3).state ≠ .free)
      ∧ after .voiceEventDelivery (s 3840) (fun t =>
          (t.ch 1).state == .network && (t.ch 1).queue == [] && t.voice 3 == Voice.freed
            && t.voice 4 == Voice.freed && (t.entry 7).hold == 0
            && t.asrun.records.map (fun r => (r.itemNo, r.outcome, r.cause, r.aired)) ==
              [(some 1, .full, .none, some ⟨0, 50, 50⟩), (some 2, .cut, .close, some ⟨60, 95, 35⟩),
                (some 3, .dropped, .close, none)]) = true
      ∧ after .voiceEventDelivery (s 3839) (fun t =>
          (t.ch 1).state == .joining && (t.ch 1).breakClear && t.asrun.records == []
            && (t.ch 1).queue.map (fun r => r.state) == [.joining]) = true := by decide +kernel

/-- A record that never aired. -/
def row : AsRunRecord := missedRow aired 1 break9 false 100 1 7

/-- The records of a completed join in full: item 1 under its own fade, item 2 dropped by the plan, and the
fill cut with the return cause CLOSE, whole with TIME. -/
theorem witness_join_records :
    let u (cause : Cause) : Run := ⟨[
      { part 1 3 .finished with
        startAC := some 0, endAC := some 50, finish := some .faded, fade := .own },
      ⟨.fill, 4, .finished, .join, some 60, some 95, some .faded⟩], cause⟩
    let r := { three .joining [] with fillClip := some 8 }
    let plan := { plan9 15000 with
      late := true, fillStart := some 70
      items := [{ (plan9 0).items[0] with squeeze := some 66000 },
        { (plan9 0).items[0] with number := 2, start := 40, disp := .dropped .fit }] }
    let x : AsRunRecord := { row with
      outcome := .full, cause := .none, late := true, planned := some 0, squeeze := some 66000
      aired := some ⟨0, 50, 50⟩ }
    let fill : AsRunRecord := { row with
      kind := .fill, itemNo := none, clip := 8, outcome := .cut, cause := .close, late := true
      planned := some 70, aired := some ⟨60, 95, 35⟩ }
    joinRecords aired 1 r plan (u .close) = [x, { row with
        itemNo := some 2, outcome := .dropped, cause := .fit, late := true, planned := some 40 }, fill]
      ∧ (joinRecords aired 1 r plan (u .time))[2]? = some { fill with
          outcome := .full, cause := .none } := by decide +kernel

/-- Break 9 ON_AIR in the frame at AC 101, with its voice 3 due to start in it, and S as given. -/
def startingPart (start : AC) (joinFade : Nat) : State :=
  let r := { flying .joining 5000 with
    start := some start
    run := some ⟨[⟨.item 1 1, 3, .primed, .none, none, none, none⟩], .abort⟩ }
  let s := prerollPart.setCh 1 { prerollPart.ch 1 with
    state := .joining, queue := [r], config := { (prerollPart.ch 1).config with joinFade := joinFade } }
  (s.setVoice 3 { cart6 with
    state := .primed, owner := some ⟨1, .brk⟩, startFrame := some 101
    ramp := some ⟨3840, 1, 0, false⟩ }).setVoice 4 { Voice.freed with
      state := .reserved, owner := some ⟨1, .brk⟩ }

/-- R49: a cancel and a start in one frame, in each order: no event; STARTED and FADED with the start AC and
no output; STARTED and FADED one frame later with one output; and the fade on a voice just started. -/
theorem test_cancel_meets_start :
    let s := startingPart 90 75
    let ended (o : Config.StartOrder) : State := joinAround o 1 9 3 s
    let seen (t : State) : List (EventKind × AC) × Nat × VoiceState :=
      (t.events.map fun e => (e.kind, e.ac), t.forming.outputs.length, (t.voice 3).state)
    s.startAhead 3 = true
      ∧ seen (ended .never) = ([], 0, .reserved)
      ∧ seen (ended .between) = ([(.started, 101), (.faded, 101)], 0, .reserved)
      ∧ seen (ended .outputBetween) = ([(.started, 101), (.faded, 102)], 1, .reserved)
      ∧ seen (ended .first) = ([(.started, 101)], 0, .playing)
      ∧ seen (ended .outputFirst) = ([(.started, 101)], 1, .playing) := by decide +kernel

/-- R139, R168: a join that handles voices of the frame at AC 101 opens the break of channel 2 whose S it is
before that break's voice 2 starts and gives its output, so no record of it can read NOT_AIRED. -/
theorem test_join_opens_the_due_breaks :
    let s := startingPart 90 75
    let other := { flying .preroll 5000 with
      number := 10, start := some 101, run := some ⟨[⟨.item 1 1, 2, .primed, .none, none, none, none⟩], .abort⟩ }
    let u := (s.setCh 2 { s.ch 1 with state := .preroll, origin := some .network, queue := [other] }).setVoice 2
      { s.voice 3 with owner := some ⟨2, .brk⟩ }
    let t := joinAround .outputFirst 1 9 3 u
    (t.flight 2).map (fun r => r.state) = some .onAir ∧ (t.ch 2).state = .onBreak
      ∧ (t.voice 2).state = .playing ∧ t.forming.outputs.length = 2
      ∧ ((joinAround .never 1 9 3 u).voice 2).state = .primed
      ∧ ((joinAround .never 1 9 3 u).flight 2).map (fun r => r.state) = some .preroll := by decide +kernel

/-- R147: in the frame at S with the open taken, the voice of item 1 starts whatever the order drawn; the
item is CUT, with a join fade of 0 after the one frame it sounded or after none. -/
theorem test_abort_in_the_opening_frame :
    let s := startingPart 101 0
    let run (i : Instr) (o : Option State) : Option State := o.bind fun s => nextOf (exec i s)
    let aired (o : Config.StartOrder) : Option (List (AirOutcome × Cause × Option Aired)) :=
      let t := joinAround (s.joinOrder 1 9 o) 1 9 3 s
      let t := t.setTx { t.tx with awaitFirst := true }
      (run .voiceEventDelivery (run .voiceEventDelivery (run (.firstHoldoverFrame 0) (some t)))).map
        fun t => t.asrun.records.map fun r => (r.outcome, r.cause, r.aired)
    aired .never = some [(.cut, .abort, some ⟨101, 102, 1⟩)]
      ∧ aired .between = some [(.cut, .abort, some ⟨101, 101, 0⟩)] := by decide +kernel

/-- Break 9 as a TIME record, and with an expiry, in the frame after AC 900. -/
def timed (target : AC) (expiry : Option AC) : State :=
  let s := loaded { break9 with trigger := .time target, expiry := expiry, window := 100000 }
  opened (s.setClock { s.clock with ac := 900, noneFormed := false })

/-- The item of break 9 is too short to air in its window (R128): the trigger is taken and the plan is
empty. -/
theorem witness_expiry_and_time :
    let e := timed 5000 (some 901)
    let t := timed 965 none
    let late := (timed 901 none).setCh 1 { (timed 901 none).ch 1 with
      config := { ((timed 901 none).ch 1).config with lateGrace := 63 } }
    let busy := t.setCh 1 { t.ch 1 with state := .halted }
    (e.formed ∧ e.forming.opened = true ∧ acAtOrBefore 901 e.nextAC = true
      ∧ acAtOrBefore (965 - 64) t.nextAC = true ∧ t.freeForBreak 1 = true
      ∧ busy.freeForBreak 1 = false ∧ (late.nextAC + 64 - 901).toNat = 64)
      ∧ after (.breakExpiry 1 9) e (fun t => (t.ch 1).queue == [] && (t.entry 7).hold == 1
          && t.asrun.records == missedRows e 1 { break9 with trigger := .time 5000 } false 901) = true
      ∧ after (.timeTrigger 1) late (fun t => (t.ch 1).queue == []
          && t.asrun.records == missedRows late 1 { break9 with trigger := .time 901 } true 901) = true
      ∧ after (.timeTrigger 1) busy (fun t => (t.ch 1).queue.map (fun r => r.state) == [.pending]
          && t.forming.timeJudged == [1]) = true
      ∧ after (.timeTrigger 1) t (fun t => (t.ch 1).queue.map (fun r =>
          (r.state, r.start, r.deadline)) == [] && t.asrun.records.length == 1) = true := by
  decide +kernel

/-- Break 9 with a clip long enough to air in its window. -/
theorem witness_granted_trigger :
    let s := loaded break9
    (s.record 1 9 = some break9 ∧ (s.ch 1).state = .network ∧ s.freeVoices.take 2 = [0, 1]
      ∧ 2 + s.reserve ≤ s.freeVoices.length)
      ∧ (acceptTrigger 1 9 1000 none false s).1 = .granted
      ∧ ((acceptTrigger 1 9 1000 none false s).2.ch 1).state = .preroll
      ∧ (((acceptTrigger 1 9 1000 none false s).2.voice 0).state = .primed)
      ∧ (((acceptTrigger 1 9 1000 none false s).2.voice 1).state = .reserved)
      ∧ (let f := s.setCh 1 { s.ch 1 with config := { (s.ch 1).config with fillClip := some 7 } }
        fillTaken 1 f break9 = some 7 ∧ fillTaken 1 (f.setEntry 7 .blank) break9 = none
          ∧ ((acceptTrigger 1 9 1000 (some 200000) false f).2.record 1 9).map (fun r =>
            (r.fillClip, r.plan.map fun p => p.fillStart)) = some (some 7, some (some 6000))) := by
  decide +kernel

theorem witness_hard_plan :
    let q : PlanInput := ⟨0, some 5000, false, caseItems, true, 75, 24000⟩
    q.deadline = some 5000 ∧ (makePlan q).isEmpty = true
      ∧ (q.items.map fun i => i.number) = [1, 2, 3, 4] := by decide +kernel

/-- The window of break 9 is too short for its item, and its voices are kept back by the reserve. -/
theorem witness_trigger_ends_at_once :
    let s := loaded break9
    let poor := (s.setReserve 15).setAlert { s.alert with mask := 0x0FFFFFFF, dest := 9 }
    (s.formed ∧ s.record 1 9 = some break9 ∧ (s.ch 1).config.fillClip = none
        ∧ (s.entry 7).state = .ready ∧ poor.freeVoices.length < 2 + poor.reserve)
      ∧ (let a := acceptTrigger 1 9 1000 (some 5000) true s
        a.1 = .emptyPlan ∧ a.2.asrun.records = [{ row with
          cause := .time, outcome := .dropped, late := true, planned := some 1000 }]
          ∧ (a.2.entry 7).hold = 1 ∧ (a.2.ch 1) = aired.ch 1)
      ∧ (let f := s.setCh 1 { s.ch 1 with config := { (s.ch 1).config with fillClip := some 7 } }
        fillTaken 1 f break9 = some 7
          ∧ ((acceptTrigger 1 9 1000 (some 5000) true f).2.entry 7).hold = 1)
      ∧ (let a := acceptTrigger 1 9 1000 none false poor
        a.1 = .refused ∧ a.2.asrun.records = [{ row with cause := .noVoice, planned := some 1000 }]
          ∧ (a.2.entry 7).hold = 1 ∧ (a.2.ch 1) = aired.ch 1 ∧ a.2.alert.pending = true
          ∧ a.2.alert = (raiseAlert .breakFailed poor).alert) := by decide +kernel

/-! ### Contacts, cues and arrivals -/

/-- Line 2 four samples into a change, line 3 closed. -/
def contacts : State :=
  let s := opened aired
  let s := s.setClock { s.clock with ac := 31, noneFormed := false }
  (s.setGpiLine 2 ⟨false, 4, .none⟩).setGpiLine 3 ⟨true, 2, .none⟩

theorem witness_contacts :
    (contacts.forming.opened = true ∧ contacts.nextAC.toNat % 32 = 0
      ∧ ∀ g : Fin 8, (contacts.gpiLine g).fn = .none)
      ∧ after (.gpiLevelChange 0x0D) contacts (fun t =>
          t.gpiLine 0 == ⟨false, 1, .none⟩ && t.gpiLine 1 == ⟨false, 0, .none⟩
            && t.gpiLine 2 == ⟨true, 0, .none⟩ && t.gpiLine 3 == ⟨true, 0, .none⟩) = true := by
  decide +kernel

theorem witness_rising_edges :
    let line (fn : GpiFunction) (s : State) : State := s.setGpiLine 5 ⟨false, 4, fn⟩
    let u (fn : GpiFunction) (s : State) : State := s.setGpiLine 5 ⟨true, 0, fn⟩
    let fill := aired.setCh 1 { aired.ch 1 with
      config := { (aired.ch 1).config with emClip := some 7 } }
    sampleLine 5 true (line (.micLive 1) aired) = u (.micLive 1) aired
      ∧ ((sampleLine 5 true (line (.brk 1) (loaded break9))).ch 1).state = .preroll
      ∧ sampleLine 5 true (line (.brk 1) aired)
          = (u (.brk 1) aired).setCh 1 { aired.ch 1 with fireRefusals := 1 }
      ∧ sampleLine 5 true (line (.abort 1) aired) = u (.abort 1) aired
      ∧ ((sampleLine 5 true (line (.abort 1) (onAirPart 5000))).ch 1).state = .joining
      ∧ sampleLine 5 true (line (.emergency 1) aired) = u (.emergency 1) aired
      ∧ ((sampleLine 5 true (line (.emergency 1) fill)).ch 1).state = .emergency
      ∧ ((sampleLine 5 true (line (.cart 1 7 4095) aired)).voice 0).state = .primed
      ∧ sampleLine 5 true (line (.cart 0 7 0) aired)
          = (u (.cart 0 7 0) aired).setCh 0 { aired.ch 0 with cartRefusals := 1 } := by decide +kernel

/-- R163 in a frame: line 5 rises with the function BREAK while line 3 stays closed. -/
theorem witness_rising_edge_in_a_frame :
    let s := opened (loaded break9)
    let s := s.setClock { s.clock with ac := 31, noneFormed := false }
    let s := (s.setGpiLine 5 ⟨false, 4, .brk 1⟩).setGpiLine 3 ⟨true, 0, .none⟩
    let t := sampleLine 5 true s
    (s.forming.opened = true ∧ s.nextAC.toNat % 32 = 0 ∧ s.forming.sampled = false
        ∧ ∀ k : Fin 8, k ≠ 5 →
          (s.gpiLine k).run = 0 ∧ (0x28#8).getLsbD k.val = (s.gpiLine k).stable)
      ∧ (t.ch 1).state = .preroll
      ∧ nextOf (exec (.gpiLevelChange 0x28) s)
          = some (t.setForming { t.forming with sampled := true }) := by decide +kernel

def cue9 : State := loaded { break9 with trigger := .cue 65535 }

theorem witness_open_cue :
    let p (key offset window : Nat) : List Byte :=
      [1, 2] ++ toBytes key 4 ++ toBytes offset 4 ++ toBytes window 4
    let s := withCue cue9 (p 65535 480000 0) 1000
    let halted := cue9.setCh 1 { cue9.ch 1 with state := .halted }
    let off := cue9.setCh 1 (.powerOn 1)
    (s.settled = true ∧ s.freeForBreak 1 = true ∧ halted.freeForBreak 1 = false)
      ∧ after .openCue s (fun t => t.cues.cue == 1
          && (t.ch 1).queue.map (fun r => (r.state, r.start)) == [(.preroll, some 481000)]) = true
      ∧ after .openCue (withCue cue9 (p 65535 0 14400000) 1000) (fun t =>
          (t.ch 1).queue.map (fun r => (r.start, r.deadline)) ==
            [(some 1064, some 14401000)] || t.asrun.records.length == 1) = true
      ∧ after .openCue (withCue cue9 (p 1 0 0) 1000) (fun t => t.cues.unmatched == 1) = true
      ∧ after .openCue (withCue halted (p 65535 0 0) 1000) (fun t => t.cues.refused == 1) = true
      ∧ after .openCue (withCue off (p 65535 0 0) 1000) (fun t =>
          t.cues.unmatched == 0 && t.cues.refused == 0 && t.cues.cue == 1) = true := by decide +kernel

theorem witness_close_cue :
    let p (key offset : Nat) : List Byte := [2, 2] ++ toBytes key 4 ++ toBytes offset 4
    let s := withCue (onAirPart 5000) (p 0 480000) (0 - 479000)
    (s.settled = true ∧ (s.ch 1).config.enable = true ∧ acBefore s.clock.ac 1000 = true)
      ∧ after .closeCue s (fun t => (t.ch 1).queue.map (fun r =>
          (r.state, r.ret, r.run.map fun u => u.cause)) == [(.onAir, some 1000, some .close)]) = true
      ∧ after .closeCue (withCue (onAirPart 5000) (p 8 0) 1000) (fun t =>
          t.cues.unmatched == 1) = true
      ∧ after .closeCue (withCue aired (p 0 0) 1000) (fun t => t.cues.unmatched == 1) = true := by
  decide +kernel

/-- Clip 3 armed for key 9. -/
def armedPart : State :=
  let s := lockedPart.setEntry 3 { DirEntry.blank with state := .armed, firstPage := 2, spotKey := 9 }
  s.setStore { s.store with armList := [⟨3, 1, 1, 0⟩] }

theorem witness_recording_cues :
    let p (kind : Byte) (key offset : Nat) : List Byte := [kind, 0] ++ toBytes key 4 ++ toBytes offset 4
    let busy := armedPart.setStore { armedPart.store with engine := some ingesting }
    (armedPart.settled = true ∧ busy.settled = true ∧ (ingestPart none).settled = true)
      ∧ after .recordStart (withCue armedPart (p 3 9 480000) 100) (fun t =>
          t.store.armList == [] && (t.entry 3).state == .filling
            && t.store.engine == some ⟨⟨3, 1, 1, 0⟩, 0, 0, some (480100, 100), none, [], none⟩) = true
      ∧ after .recordStart (withCue armedPart (p 3 8 0) 100) (fun t => t.cues.recordUnmatched == 1)
          = true
      ∧ after .recordStart (withCue busy (p 3 9 0) 100) (fun t => t.cues.recordBusy == 1) = true
      ∧ after .recordStop (withCue (ingestPart none) (p 4 0 0) 100) (fun t =>
          t.store.engine == some { ingesting with stop := some 100 }) = true
      ∧ after .recordStop (withCue armedPart (p 4 9 0) 100) (fun t => t.cues.recordUnmatched == 1)
          = true := by decide +kernel

theorem witness_time_mark :
    let p (seconds frame : Nat) : List Byte :=
      [5, 0] ++ toBytes seconds 4 ++ toBytes 0 4 ++ toBytes frame 2
    after .timeMark (withCue aired (p 86399 47999) 100) (fun t =>
        t.clock.mark == ⟨true, 100, 86399, 47999⟩ && t.cues.cue == 1) = true
      ∧ after .timeMark (withCue aired (p 86400 0) 100) (fun t => t.cues.malformed == 1) = true
      ∧ after .unknownCue (withCue aired [6] 100) (fun t => t.cues.unknown == 1) = true
      ∧ after .unknownCue (withCue aired [0] 100) (fun t => t.cues.unknown == 1) = true
      ∧ after .unknownCue (withCue aired [] 100) (fun t => t.cues.malformed == 1) = true := by
  decide +kernel

/-- R93, R197: one byte too short, and each field one above its range, with the others in range. -/
theorem witness_malformed_cues :
    let cue (kind mask : Byte) (a b : Nat) : List Byte := [kind, mask] ++ toBytes a 4 ++ toBytes b 4
    let bad : List (Instr × List Byte) := [
      (.openCue, cue 1 16 9 0 ++ toBytes 0 4), (.openCue, cue 1 15 9 480001 ++ toBytes 0 4),
      (.openCue, cue 1 15 9 0 ++ toBytes 14400001 4), (.openCue, cue 1 15 9 0), (.openCue, [1]),
      (.closeCue, cue 2 16 9 0), (.closeCue, cue 2 15 9 480001), (.closeCue, cue 2 15 9 0 ++ [0]),
      (.recordStart, cue 3 0 9 480001), (.recordStart, cue 3 0 9 0 ++ [0]),
      (.recordStop, cue 4 0 9 480001), (.recordStop, [4, 0]),
      (.timeMark, cue 5 0 86400 0 ++ [0, 0]), (.timeMark, cue 5 0 0 0 ++ [0xBB, 0x80]),
      (.timeMark, cue 5 0 0 0)]
    bad.all (fun q => decide (cueMalformed (q.2.headD 0) q.2)
        && nextOf (exec q.1 (withCue cue9 q.2 100))
          == some (cue9.setCues { cue9.cues with cue := 1, malformed := 1 })) = true := by decide +kernel

/-- The state with one routed packet. -/
def withPacket (r : Route) (payload : List Byte) (s : State) : State :=
  s.setCmd { s.cmd with inbox := [⟨r, 5, 5, payload, 100⟩] }

theorem witness_command_packets :
    let h : CmdHeader := ⟨0x10, true, false, 0x1234, 300, 3⟩
    let open_ : Assembly := ⟨5, h, [1], 101⟩
    let s := aired.setCmd { aired.cmd with assembly := some open_ }
    let full := aired.setCmd { aired.cmd with queue := List.replicate 8 ⟨5, h, [1, 2, 3]⟩ }
    let timeout := opened (s.setClock { s.clock with ac := 100, noneFormed := false })
    (headerFits h ∧ parseHeader (headerBytes h) = h)
      ∧ after .command (withPacket .command (headerBytes h ++ [1, 2, 3]) aired) (fun t =>
          t.cmd.queue == [⟨5, h, [1, 2, 3]⟩]) = true
      ∧ after .command (withPacket .command (headerBytes h ++ [1]) aired) (fun t =>
          t.cmd.assembly == some ⟨5, h, [1], 4900⟩) = true
      ∧ after .command (withPacket .command (headerBytes h ++ [1, 2, 3]) full) (fun t =>
          t.cmd.queue.length == 8 && t.cmd.replies.length == 1) = true
      ∧ after .commandMore (withPacket .commandMore [0x12, 0x34, 2, 3] s) (fun t =>
          t.cmd.queue == [⟨5, h, [1, 2, 3]⟩] && t.cmd.assembly == none) = true
      ∧ after .commandMore (withPacket .commandMore [0x12, 0x34, 2] s) (fun t =>
          t.cmd.assembly == some ⟨5, h, [1, 2], 4900⟩) = true
      ∧ (timeout.forming.opened = true ∧ open_.deadline = timeout.nextAC)
      ∧ after .assemblyTimeout timeout (fun t => t.cmd.assembly == none
          && t.cmd.replies.map (fun p => p.payload) == [[0x10, 2, 0x12, 0x34, 4, 0, 0, 0]]) = true := by
  decide +kernel

/-! ### Commands -/

theorem witness_due_steps :
    (silent false).settled = false ∧ (settle (silent false)).settled = true
      ∧ (withCommand (silent false) 1 []).commandDue (hasCode 1) = true
      ∧ after .identify (withCommand (silent false) 1 []) (fun t =>
          (t.mon 1).silence && t.cmd.build.length == 1) = true := by decide +kernel

theorem witness_unknown_and_length :
    runs .unknownCommand aired 0x07 [] (.refused .unknownCommand) aired
      ∧ runs .identify aired 0x01 [0] (.refused .badLength) aired
      ∧ runs .asrunDiscard aired 0x51 [0] (.refused .badLength) aired
      ∧ (0x07 ∉ knownCodes) := by decide +kernel

theorem witness_identify :
    (ready (withCommand unit5 1 []) 5 (hdr 1) [] [] ∧ dataLimit ⟨1, false, false, 0, 24, 0⟩ = 16)
      ∧ after .identify (withCommand unit5 1 []) (fun t => t.cmd.build.map (fun p => p.payload) ==
          [[1, 0, 0x12, 0x34, 0, 0, 0, 16, 0x52, 0x41, 0x2D, 0x34, 0x31, 0x36, 1, 0, 5, 0, 4, 0, 16,
            4, 1, 0]]) = true := by decide +kernel

theorem witness_unit_set :
    runs .unitSet State.reset 0x02 [0x1F, 239, 254, 0x02, 0x05, 0x10, 0x00, 9]
        (.done true false [239, 254, 2, 4, 16, 0, 8])
        ((((State.reset.setLane { State.reset.lane with unitAddr := 239, groupAddr := 254 }).setTx
          { State.reset.tx with holdover := 516 }).setStore
          { State.reset.store with lp := 4096, currentPage := 4096, boundaryPage := 4096 }).setReserve
            8)
      ∧ runs .unitSet State.reset 0x02 [1, 240, 0, 0, 0, 0, 0, 0] (.refused .badField) State.reset
      ∧ runs .unitSet State.reset 0x02 [2, 0, 239, 0, 0, 0, 0, 0] (.refused .badField) State.reset
      ∧ runs .unitSet State.reset 0x02 [8, 0, 0, 0, 0, 0x10, 1, 0] (.refused .badField) State.reset
      ∧ runs .unitSet aired 0x02 [8, 0, 0, 0, 0, 4, 0, 0] (.refused .state) aired := by
  decide +kernel

/-- A part with an ended cart, an ARMED entry, an ALERT ready and LOCK changes counted. -/
def busyPart (mask : BitVec 32) : State :=
  let s := cartEnded.setEntry 3 { DirEntry.blank with state := .armed, firstPage := 2 }
  let s := s.setStore { s.store with armList := [⟨3, 1, 1, 0⟩], ringList := [9] }
  s.setAlert { s.alert with
    mask := mask, dest := 9, pending := true, changed := 1, number := 255, lockCount := 2
    ready := some ⟨9, 5, 255, 2, 0, 100, 0⟩ }

theorem witness_device_reset :
    let s (mask : BitVec 32) := withCommand (busyPart mask) 3 []
    ready (s 0) 5 (hdr 3) [] []
      ∧ (∀ v : Fin 16, ((s 0).voice v).state ≠ .free → ((s 0).voice v).owner.isSome = true)
      ∧ ((s 0).formed ∧ ∀ c : Fin 4, (((s 0).ch c).queue.map fun r => r.number).Nodup)
      ∧ after .deviceReset (s 0) (fun t => (t.voice 6).state == .free && t.events == []
          && (t.ch 1).state == .network && t.cmd.build.length == 1
          && t.entry 7 == { clip7 with hold := 2 - references (s 0) 7 } && references (s 0) 7 == 1
          && t.entry 3 == .blank && t.store == { (s 0).store with
            directory := t.store.directory, armList := [] }
          && t.alert == { (s 0).alert with
            pending := false, changed := 0, lockCount := 0, ready := none }
          && t.asrun.records.map (fun r => (r.outcome, r.cause)) == [(.cut, .reset)]) = true
      ∧ (let w := withCommand ((silent false).setCh 1 { (silent false).ch 1 with
            monitor := { ((silent false).ch 1).monitor with silence := true, limitReached := false } }
              |>.setAlert (busyPart 0xFFFFFFF).alert) 3 []
        after .deviceReset w (fun t => t.alert.pending && t.alert.number == 0
          && t.alert.lockCount == 0 && t.alert.ready.map (fun a => (a.number, a.lockCount)) ==
            some (0, 0)) = true) := by
  decide +kernel

/-- R101: an OPEN for channels 0, 1 and 3 taken by a reset after its second channel has triggered, a
CLOSE after its first, and an OPEN not begun, for these values of the free value of log entry 46. -/
theorem witness_device_reset_in_a_cue :
    let on (c : Fin 4) (s : State) : State := s.setCh c { s.ch c with
      state := .network, config := { (s.ch c).config with enable := true } }
    let cue (kind : Byte) : List Byte := [kind, 11] ++ toBytes 65535 4 ++ toBytes 64 4 ++ toBytes 0 4
    let s (kind : Byte) := withCommand (withCue (on 3 (on 0 cue9)) (cue kind) 1000) 3 []
    let reset (visited : Nat) (kind : Byte) : State := resetAround visited (s kind)
    (ready (s 1) 5 (hdr 3) [] [] ∧ ready (s 2) 5 (hdr 3) [] [])
      ∧ (let t := reset 2 1
        t.cues = ⟨0, 0, 0, 1, 0, 0, 0⟩ ∧ t.cmd.inbox = [] ∧ (t.ch 1).queue = []
          ∧ (t.ch 1).state = .network ∧ (t.voice 0).state = .free
          ∧ t.asrun.records.map (fun r => (r.outcome, r.cause)) = [(.dropped, .reset)])
      ∧ (reset 1 2).cues = ⟨0, 0, 0, 2, 0, 0, 0⟩
      ∧ (reset 0 1).cues = ⟨0, 0, 0, 0, 0, 0, 0⟩ ∧ (reset 0 1).cmd.inbox = (s 1).cmd.inbox := by decide +kernel

theorem witness_status_read :
    let s := aired.setRx { aired.rx with syncMiss := 5, syncSlip := true }
    runs .statusRead s 0x04 [0] (.done false false (statusSections s).flatten) s
      ∧ runs .statusRead s 0x04 [1] (.done false false (statusSections s).flatten) aired
      ∧ runs .statusRead s 0x04 [2] (.refused .badField) s
      ∧ (statusSections s).flatten.length ≤ dataLimit (hdr 4) := by decide +kernel

theorem witness_alert_set :
    runs .alertSet aired 0x05 [0x0F, 0xFF, 0xFF, 0xFF, 9] (.done false false [0x0F, 0xFF, 0xFF, 0xFF, 9])
        (aired.setAlert { aired.alert with mask := 0x0FFFFFFF, dest := 9 })
      ∧ runs .alertSet aired 0x05 [0x10, 0, 0, 0, 9] (.refused .badField) aired
      ∧ runs .alertSet aired 0x05 [0, 0, 0, 1, 0] (.refused .badField) aired
      ∧ aired.alert.mask = 0 := by decide +kernel

/-- The alert unit with an ALERT pending, changes of LOCK in the changed set, and an ALERT ready. -/
def alerted (changed : BitVec 32) (ready : Bool) : State :=
  unit5.setAlert { unit5.alert with
    mask := 1, dest := 9, pending := true, changed := changed, number := 255, lockCount := 200
    ready := if ready then some ⟨9, 5, 255, 2, 0, 100, 0⟩ else none }

theorem witness_alert_clear :
    runs .alertClear (alerted 0 false) 0x06 [] (.done false false [0, 0])
        ((alerted 0 false).setAlert { (alerted 0 false).alert with pending := false })
      ∧ runs .alertClear (alerted 1 false) 0x06 [] (.done false false [1, 1])
        ((alerted 1 false).setAlert { (alerted 1 false).alert with
          number := 0, changed := 0, lockCount := 0, ready := some ⟨9, 5, 0, 1, 0, 200, 0⟩ })
      ∧ runs .alertClear (alerted 1 true) 0x06 [] (.done false false [1, 1])
        ((alerted 1 true).setAlert { (alerted 1 true).alert with
          number := 0, changed := 0, lockCount := 0, ready := some ⟨9, 5, 0, 3, 0, 255, 0⟩ })
      ∧ runs .alertClear aired 0x06 [] (.done false false [0, 0]) aired := by
  decide +kernel

/-- A CHANNEL_SET body: channel, presence bits, and a record with the enable and the duck rate. -/
def channelBody (c : Byte) (presence : Nat) (enable : Byte) (duckRate : Byte) : List Byte :=
  [c] ++ toBytes presence 4 ++ [enable] ++ List.replicate 29 0 ++ [duckRate] ++ List.replicate 4 0

theorem witness_channel_set :
    let c1 := aired.ch 1
    let c2 := aired.ch 2
    runs .channelSet aired 0x10 (channelBody 4 0 0 0) (.refused .badField) aired
      ∧ runs .channelSet aired 0x10 (channelBody 3 0 0 0)
          (.done false false (3 :: configBytes (aired.ch 3).config)) aired
      ∧ runs .channelSet aired 0x10 (channelBody 1 0x8000 0 0)
          (.done true false (1 :: configBytes { c1.config with duckRate := 1 }))
          (aired.setCh 1 { c1 with config := { c1.config with duckRate := 1 } })
      ∧ runs .channelSet aired 0x10 (channelBody 2 1 1 0)
          (.done false false (2 :: configBytes { c2.config with enable := true }))
          (aired.setCh 2 { c2 with config := { c2.config with enable := true }, state := .network })
      ∧ runs .channelSet aired 0x10 (channelBody 2 0x8000 0 255)
          (.done false false (2 :: configBytes { c2.config with duckRate := 255 }))
          (aired.setCh 2 { c2 with config := { c2.config with duckRate := 255 } })
      ∧ runs .channelSet aired 0x10 (channelBody 1 1 0 0)
          (.done false false (1 :: configBytes { c1.config with enable := false }))
          (aired.setCh 1 { c1 with config := { c1.config with enable := false }, state := .halted }) := by
  decide +kernel

/-- R65: what each of the checks 2 to 6 refuses, alone and before the next one. -/
theorem witness_channel_checks :
    let s := aired.setCh 2 { aired.ch 2 with
      config := { (aired.ch 2).config with slotL := (aired.ch 1).config.slotR } }
    let flight := s.setCh 2 { s.ch 2 with state := .preroll }
    let owner := s.setVoice 6 { Voice.freed with state := .reserved, owner := some ⟨1, .cart⟩ }
    let enable : List Byte := channelBody 2 1 1 0
    let failing (s : State) (c : Fin 4) (b : List Byte) :=
      ((setChecks s c b).find? fun q => q.1).map fun q => q.2
    let refused (s : State) (b : List Byte) (f : ErrFlag) : Prop :=
      runs .channelSet s 0x10 b (.refused f) s
    (refused flight (channelBody 2 1 2 0) .badField ∧ refused flight enable .state
        ∧ refused s (channelBody 2 6 0 0) .badField ∧ refused s enable .badField
        ∧ refused owner (channelBody 1 1 0 0) .state)
      ∧ failing flight 2 (channelBody 2 1 2 0) = some .badField ∧ failing flight 2 enable = some .state
      ∧ failing s 2 (channelBody 2 6 0 0) = some .badField ∧ failing s 2 enable = some .badField
      ∧ failing owner 1 (channelBody 1 1 0 0) = some .state
      ∧ failing aired 1 (channelBody 1 0x8000 0 0) = none ∧ failing aired 2 enable = none
      ∧ failing aired 1 (channelBody 1 1 0 0) = none := by decide +kernel

/-- R66, R154: a channel turned off with its SILENCE level active ends the level. -/
theorem witness_channel_off_in_silence :
    let s := aired.setCh 1 { aired.ch 1 with
      monitor := { (aired.ch 1).monitor with silence := true, silentCount := 9 } }
    let s := s.setAlert { s.alert with mask := 0x0FFFFFFF, dest := 9 }
    let b := channelBody 1 1 0 0
    let new := fieldsReplaced b (s.ch 1).config
    runs .channelSet s 0x10 b (.done (fieldsClamped b new) false (1 :: configBytes new))
      (raiseAlert (.silence 1) (s.setCh 1 { s.ch 1 with
        config := new, state := .halted
        monitor := { (s.ch 1).monitor with silence := false, silentCount := 0 } })) := by decide +kernel

theorem witness_channel_reset :
    let s := loaded break9
    let x := s.ch 1
    (s.flight 1 = none ∧ (s.ch 1).carts = [] ∧ (s.ch 1).monitor.emRecord = none)
      ∧ runs .channelReset s 0x11 [1] (.done false false [])
        ((s.setCh 1 { x with queue := [] }).setEntry 7 { clip7 with hold := 1 })
      ∧ runs .channelReset s 0x11 [4] (.refused .badField) s := by decide +kernel

/-- Channel 1 with three parts of a break, a fill that has started, two carts and an emergency fill. -/
def workingPart : State :=
  let r := { three .onAir [part 1 3 .finished, { part 2 4 .sounding with startAC := some 60 },
      part 3 3 .primed, ⟨.fill, 4, .primed, .none, none, none, none⟩] with fillClip := some 7 }
  let s := onAirPart 15000
  let s := s.setCh 1 { s.ch 1 with
    queue := [r], carts := [⟨8, 7, 3, 0, none⟩, ⟨6, 7, 2, 0, some 70⟩]
    monitor := { (s.ch 1).monitor with phase := .yielding, emRecord := some ⟨9, 7, 4, some 80⟩ } }
  let s := (s.setVoice 6 { s.voice 3 with owner := some ⟨1, .cart⟩ }).setVoice 9 { s.voice 3 with
    state := .reserved, owner := some ⟨1, .emergency⟩ }
  let s := (s.setVoice 4 { s.voice 3 with state := .playing }).setVoice 3 { s.voice 3 with
    state := .primed, startAC := none }
  let s := s.setEvents [⟨.faded, 9, 98, 1⟩]
  s.setForming { Forming.start with opened := true, outputs := [⟨6, 1, 0, 0, 0⟩] }

/-- What a reset records of it: item 1 has no start AC and item 3 no start; the fill's voice plays since AC
0 and gives no output in frame 101; cart 6 gave its output in it; cart 8 never started; the emergency
fill's FADED waits. -/
theorem witness_reset_records :
    let x : AsRunRecord := { row with cause := .reset, planned := none, outcome := .cut }
    let item (n : Nat) (at_ : AC) : AsRunRecord := { x with
      itemNo := some n, planned := some at_, outcome := .dropped }
    let other (k : AsRunKind) (key : BitVec 32) : AsRunRecord := { x with
      kind := k, breakNo := none, itemNo := none, spotKey := key }
    let rows := [item 1 0,
      { item 2 4000 with outcome := .cut, aired := some ⟨60, 101, 41⟩ }, item 3 9000,
      { x with
        kind := .fill, itemNo := none, planned := some 0, aired := some ⟨0, 101, 101⟩ },
      { other .cart 2 with aired := some ⟨70, 102, 32⟩ },
      { other .cart 3 with outcome := .notAired },
      { other .emergency 4 with aired := some ⟨80, 99, 19⟩ }]
    let s := workingPart
    (s.formed ∧ resetRecords s 1 = rows ∧ ready (withCommand s 0x11 [1]) 5 (hdr 0x11) [1] []
        ∧ ∀ v : Fin 16, (s.voice v).state ≠ .free →
          (s.voice v).owner.any (fun o => o.channel == 1) = true)
      ∧ after .channelReset (withCommand s 0x11 [1]) (fun t => t.asrun == ⟨rows, 0⟩
          && (t.ch 1).state == .network && t.events == [] && channelReferences s 1 7 == 8
          && (t.entry 7).hold == 0) = true
      ∧ after .deviceReset (withCommand s 3 []) (fun t => t.asrun == ⟨rows, 0⟩) = true := by
  decide +kernel

theorem witness_clock_set :
    let s := aired.setVoice 6 { cart6 with state := .primed, startFrame := some 10 }
    let filling := (cartEnded.setTx { cartEnded.tx with lastCarrying := some 9 }).setStore
      { cartEnded.store with engine := some { ingesting with
        start := some (100, 90), stop := some 300, captured := [⟨101, false⟩] } }
    let filling := filling.setClock { filling.clock with mark := ⟨true, 50, 1, 2⟩ }
    (∀ c : Fin 4, (s.ch c).state.onAir = false)
      ∧ after .clockSet (withCommand filling 0x12 [0, 0, 0, 5]) (fun t =>
          t.clock.mark == ⟨true, 55, 1, 2⟩ && t.tx.lastCarrying == some 14
            && t.store.engine == some { ingesting with
              start := some (105, 95), stop := some 305, captured := [⟨106, false⟩] }
            && (t.ch 1).carts == [⟨6, 7, 77, 3840, some 20⟩]
            && t.events == [⟨.ended, 6, 90, 10⟩]) = true
      ∧ runs .clockSet s 0x12 [0xFF, 0xFF, 0xFF, 0xFE] (.done false false [0, 0, 0, 0, 255, 255, 255, 254])
        ((s.setVoice 6 { cart6 with state := .primed, startFrame := some 8 }).setClock
          { s.clock with ac := 0xFFFFFFFE })
      ∧ runs .clockSet (onAirPart 5000) 0x12 [0, 0, 0, 1] (.refused .state) (onAirPart 5000) := by
  decide +kernel

theorem witness_cart_fire :
    let full := aired.setVoices (Vector.replicate 16 { Voice.freed with state := .reserved })
    let refusedAt (c : Fin 4) (s : State) := s.setCh c { s.ch c with cartRefusals := 1 }
    runs .cartFire aired 0x36 [1, 0, 7, 255, 255] (.done true false [0, 0, 0, 0, 32])
        (((aired.setEntry 7 { clip7 with hold := 3 }).setCh 1 { aired.ch 1 with
          carts := [⟨0, 7, 0, 4095, none⟩] }).setVoice 0 { cart6 with
            state := .primed, startFrame := some 32, code := 4095, ramp := some ⟨4095, 1, 0, false⟩ })
      ∧ runs .cartFire aired 0x36 [4, 0, 7, 0, 0] (.refused .badField) aired
      ∧ runs .cartFire aired 0x36 [1, 4, 0, 0, 0] (.refused .badField) aired
      ∧ runs .cartFire aired 0x36 [0, 0, 7, 0, 0] (.refused .state) (refusedAt 0 aired)
      ∧ runs .cartFire aired 0x36 [1, 0, 8, 0, 0] (.refused .notFound) (refusedAt 1 aired)
      ∧ runs .cartFire full 0x36 [1, 0, 7, 0, 0] (.refused .noVoice) (refusedAt 1 full)
      ∧ aired.formed := by decide +kernel

theorem witness_dir_read :
    runs .dirRead aired 0x20 [3, 255, 255, 255]
        (.done false false ([3, 255, 0, 1] ++ entryBytes 1023 .blank)) aired
      ∧ runs .dirRead aired 0x20 [4, 0, 0, 1] (.refused .badField) aired
      ∧ runs .dirRead aired 0x20 [0, 0, 0, 0] (.refused .badField) aired
      ∧ (min 1024 (1024 - 0) = 1024 ∧ (dataLimit (hdr 0x20) - 4) / 48 = 85) := by
  decide +kernel

/-- Clip 7 without a hold. -/
def editable : State := State.reset.setEntry 7 { clip7 with hold := 0 }
/-- A DIR_WRITE body for clip 7 with the presence bits, trim and loop points given. -/
def dirBody (n : Byte) (presence : Byte) (trim : Nat) (a z : Nat) : List Byte :=
  [0, n, presence] ++ toBytes trim 2 ++ [1] ++ toBytes a 4 ++ toBytes z 4 ++ [0, 0, 0, 9]
    ++ List.replicate 16 0x41

theorem witness_dir_write_and_erase :
    let armed := State.reset.setEntry 7 { clip7 with state := .armed, hold := 0 }
    let ring (l : List Nat) : State :=
      let s := (State.reset.setEntry 7 { clip7 with region := .ring, hold := 0, firstPage := 1024 })
      let s := s.setEntry 8 { clip7 with region := .ring, hold := 0, firstPage := 1025 }
      s.setStore { s.store with ringList := l, currentPage := 1026, boundaryPage := 1024 }
    runs .dirWrite editable 0x21 (dirBody 7 15 0xFBFF 4968 5000) (.done true false [])
        (editable.setEntry 7 { clip7 with
          hold := 0, trim := -1024, loop := some (4968, 5000), spotKey := 9
          label := Vector.replicate 16 0x41 })
      ∧ runs .dirWrite editable 0x21 (dirBody 7 2 0 4969 5000) (.refused .badField) editable
      ∧ runs .dirWrite editable 0x21 (dirBody 8 0 0 0 0) (.refused .notFound) editable
      ∧ runs .dirWrite aired 0x21 (dirBody 7 0 0 0 0) (.refused .held) aired
      ∧ runs .dirWrite armed 0x21 (dirBody 7 0 0 0 0) (.refused .state) armed
      ∧ runs .dirErase editable 0x22 [0, 7] (.done false false []) State.reset
      ∧ runs .dirErase editable 0x22 [0, 8] (.refused .notFound) editable
      ∧ runs .dirErase aired 0x22 [0, 7] (.refused .held) aired
      ∧ runs .dirErase armed 0x22 [0, 7] (.refused .state) armed
      ∧ runs .dirErase (ring [7, 8]) 0x22 [0, 8] (.refused .state) (ring [7, 8])
      ∧ runs .dirErase (ring [7, 8]) 0x22 [0, 7] (.done false false [])
          ((ring [8]).setEntry 7 .blank |>.setStore { ((ring [8]).setEntry 7 .blank).store with
            boundaryPage := 1025 })
      ∧ runs .dirErase (ring [7]) 0x22 [0, 7] (.done false false [])
          ((ring []).setEntry 7 .blank |>.setStore { ((ring []).setEntry 7 .blank).store with
            boundaryPage := 1026 }) := by decide +kernel

/-- An INGEST_ARM body for clip 3: library page 2, slot 15, width 1, mono, 48,000, key 9, limit 5. -/
def armBody (cue : Byte) : List Byte :=
  [0, 3, 0, 0, 2, 15, 1, 0, 0xBB, 0x80, 0, 0, 0, 9, 0, 0, 0, 5, cue]

theorem witness_ingest_arm :
    let e := { DirEntry.blank with state := .armed, firstPage := 2, spotKey := 9 }
    ((armFields (armBody 1)).map fun f => (f.arm, f.now)) = some (⟨3, 15, 1, 5⟩, false)
      ∧ runs .ingestArm lockedPart 0x23 (armBody 1) (.done false false [])
        ((lockedPart.setEntry 3 e).setStore { (lockedPart.setEntry 3 e).store with
          armList := [⟨3, 15, 1, 5⟩] })
      ∧ runs .ingestArm State.reset 0x23 (armBody 0) (.refused .link) State.reset
      ∧ after .ingestArm (withCommand lockedPart 0x23 (armBody 0)) (fun t =>
          t.store.engine == some ⟨⟨3, 15, 1, 5⟩, 0, 0, none, none, [], none⟩
            && (t.entry 3).state == .filling) = true
      ∧ lockedPart.formed := by decide +kernel

/-- An INGEST_ARM body for clip 3 with these bytes replaced. -/
def armWith (l : List (Nat × Byte)) : List Byte := l.foldl (fun b p => b.set p.1 p.2) (armBody 1)

theorem witness_arm_values :
    [armBody 0, armWith [(6, 0)], armWith [(6, 2)], armWith [(7, 1)], armWith [(18, 2)]].map
      (fun b => decide (armKnown b)) = [true, false, false, false, false] := by decide +kernel

/-- The checks of INGEST_ARM one by one: each fails alone, and the earlier of two wins. -/
theorem witness_arm_checks :
    let s := lockedPart
    let held := s.setEntry 7 { clip7 with firstPage := 2 }
    let full := s.setStore { s.store with armList := List.replicate 8 ⟨9, 0, 1, 0⟩ }
    let busy := held.setStore { held.store with engine := some ingesting }
    let ring := s.setStore { s.store with lp := 4000, ringList := [7], currentPage := 4050, boundaryPage := 4050 }
    let reserved := (held.setEntry 4 { DirEntry.blank with state := .armed, firstPage := 0 }).setStore
      { (held.setEntry 4 { DirEntry.blank with state := .armed, firstPage := 0 }).store with
        armList := [⟨4, 0, 1, 0⟩] }
    runs .ingestArm s 0x23 (armWith [(0, 4)]) (.refused .badField) s
      ∧ runs .ingestArm held 0x23 (armWith [(1, 7), (6, 0)]) (.refused .state) held
      ∧ runs .ingestArm s 0x23 (armWith [(6, 0)]) (.refused .badField) s
      ∧ runs .ingestArm busy 0x23 (armWith [(3, 0x10), (18, 0)]) (.refused .badField) busy
      ∧ runs .ingestArm (s.setStore { s.store with lp := 4096 }) 0x23 (armWith [(2, 1)])
          (.refused .noRoom) (s.setStore { s.store with lp := 4096 })
      ∧ runs .ingestArm busy 0x23 (armBody 0) (.refused .busy) busy
      ∧ runs .ingestArm ring 0x23 (armWith [(2, 1), (18, 0)]) (.refused .noRoom) ring
      ∧ runs .ingestArm full 0x23 (armBody 1) (.refused .noRoom) full
      ∧ runs .ingestArm reserved 0x23 (armBody 1) (.refused .state) reserved
      ∧ runs .ingestArm held 0x23 (armBody 1) (.refused .held) held := by decide +kernel

/-- Accepted arms: over an unheld clip, which becomes EMPTY, and in the ring with each start mode. -/
theorem witness_arm_accepted :
    let above := lockedPart.setEntry 7 { clip7 with hold := 0, firstPage := 2 }
    let s := lockedPart.setStore { lockedPart.store with
      lp := 4000, currentPage := 4050, boundaryPage := 4050 }
    let e := { DirEntry.blank with state := .armed, region := .ring, spotKey := 9 }
    (above.formed ∧ (armChecks above (armBody 1)).find? (fun q => q.1) = none
        ∧ (armChecks s (armWith [(2, 1), (18, 0)])).find? (fun q => q.1) = none)
      ∧ after .ingestArm (withCommand above 0x23 (armBody 1)) (fun t =>
          t.entry 7 == .blank && (t.entry 3).state == .armed) = true
      ∧ runs .ingestArm s 0x23 (armWith [(2, 1)]) (.done false false [])
          ((s.setEntry 3 e).setStore { (s.setEntry 3 e).store with armList := [⟨3, 15, 1, 5⟩] })
      ∧ after .ingestArm (withCommand s 0x23 (armWith [(2, 1), (18, 0)])) (fun t =>
          t.entry 3 == armedEntry (armWith [(2, 1)]) .filling 4050 && t.store.armList == []
            && t.store.engine == some ⟨⟨3, 15, 1, 5⟩, 0, 0, none, none, [], none⟩) = true := by
  decide +kernel

theorem witness_ingest_stop_and_ring_retire :
    let s := ingestPart none
    let ring (hold : Nat) : State :=
      let s := State.reset.setEntry 7 { clip7 with region := .ring, hold := hold, firstPage := 1024 }
      s.setStore { s.store with ringList := [7], currentPage := 1025, boundaryPage := 1024 }
    runs .ingestStop s 0x24 [0, 3] (.done false false [3, 0, 0, 0, 10])
        (let t := s.setEntry 3 { DirEntry.blank with state := .ready, firstPage := 2, length := 10 }
        t.setStore { t.store with engine := none, lastReport := ⟨3, .commandStop, 10⟩ })
      ∧ runs .ingestStop armedPart 0x24 [0, 3] (.done false false []) lockedPart
      ∧ runs .ingestStop aired 0x24 [0, 7] (.refused .state) aired
      ∧ runs .ingestStop aired 0x24 [3, 255] (.refused .notFound) aired
      ∧ runs .ringRetire (ring 0) 0x25 [0xFF, 0xFF] (.done true false [0, 1])
          (State.reset.setStore { State.reset.store with currentPage := 1025, boundaryPage := 1025 })
      ∧ (let e (p : Nat) := { clip7 with region := .ring, hold := 0, firstPage := p }
        let s := ((State.reset.setEntry 7 (e 1024)).setEntry 8 (e 1025)).setEntry 9
          { e 1026 with hold := 1 }
        let r := s.setStore { s.store with
          ringList := [7, 8, 9], currentPage := 1027, boundaryPage := 1024 }
        let t := State.reset.setEntry 9 { e 1026 with hold := 1 }
        runs .ringRetire r 0x25 [0, 5] (.done false false [0, 2]) (t.setStore { t.store with
          ringList := [9], currentPage := 1027, boundaryPage := 1026 }))
      ∧ runs .ringRetire (ring 1) 0x25 [0, 1] (.done false false [0, 0]) (ring 1)
      ∧ runs .ringRetire aired 0x25 [0, 5] (.done false false [0, 0]) aired := by
  decide +kernel

/-- A stereo ring ingest of 200,001 words that began on the ring's last page, an ingest of one word into a
stereo clip, and one into an empty ring. -/
theorem witness_ingest_stop_keeps :
    let part (words : Nat) (region : Region) (l : List Nat) : State :=
      let s := lockedPart.setEntry 3 { DirEntry.blank with
        state := .filling, firstPage := 4095, layout := .stereo, region := region }
      s.setStore { s.store with
        engine := some { ingesting with words := words, failed := 70000 }, ringList := l
        currentPage := 4095, boundaryPage := 1030 }
    let e := { DirEntry.blank with
      state := .ready, firstPage := 4095, layout := .stereo, region := .ring, length := 100000
      damage := 65535 }
    let kept (l : List Nat) (boundary : Nat) : State :=
      let t := lockedPart.setEntry 3 e
      t.setStore { t.store with
        engine := none, lastReport := ⟨3, .commandStop, 100000⟩, ringList := l, currentPage := 1027
        boundaryPage := boundary }
    runs .ingestStop (part 200001 .ring [5]) 0x24 [0, 3] (.done false false [3, 0, 1, 0x86, 0xA0])
        (kept [5, 3] 1030)
      ∧ runs .ingestStop (part 200001 .ring []) 0x24 [0, 3] (.done false false [3, 0, 1, 0x86, 0xA0])
        (kept [3] 4095)
      ∧ runs .ingestStop (part 1 .library []) 0x24 [0, 3] (.done false false [5, 0, 0, 0, 0])
        (lockedPart.setStore { lockedPart.store with
          lastReport := ⟨3, .emptyClip, 0⟩, currentPage := 4095, boundaryPage := 1030 }) := by
  decide +kernel

/-- A BREAK_LOAD first part of channel 1, break 9, MANUAL, with one item of clip 7. -/
def loadBody (more : Byte) : List Byte :=
  [1, 0, 9, 0, more, 2, 0, 0, 0, 0, 0, 0, 0, 0, 0x0F, 0x00, 0, 0, 0, 0, 0, 0, 0, 0, 1]
    ++ [0, 7, 0, 0, 0x0F, 0x00, 0, 0, 0, 0, 0, 0, 0, 0, 0, 0]
/-- Its continuation. -/
def moreBody : List Byte :=
  [1, 0, 9, 1, 0, 1] ++ [0, 7, 1, 1, 0xFF, 0xFF, 0, 0, 0, 0, 0, 0, 0, 0, 0, 0]
/-- Break 9 as loaded. -/
def loaded9 (st : RecState) : BreakRecord := { break9 with netLevel := 3840, state := st }

/-- A first part with every number at the end of its range or beyond it, and one with a fill above 1,023. -/
def fullBody (fill : Byte) : List Byte :=
  [3, 0xFF, 0xFF, 0, 1, 1, 0, 0, 0, 9, 0, 0xDB, 0xBA, 0, 0xFF, 0xFF, 1, fill, 0xFF, 1, 0, 0, 0, 1, 1]
    ++ [3, 0xFF, 1, 1, 0xFF, 0xFF, 0, 7, 0x53, 1, 1, 0, 3, 1, 0xFF, 0]

/-- The first part is in range, as a value. -/
def allowed (body : List Byte) : Bool := decide (firstPartAllowed body 0)

theorem witness_load_parts_in_range :
    allowed (loadBody 1) = true ∧ allowed (fullBody 3) = true ∧ allowed (fullBody 4) = false
      ∧ itemAllowed (itemAt moreBody 6 0) := by decide +kernel

theorem witness_loaded_record :
    (parseFirst (fullBody 3) State.reset).map (fun p => (p.1, p.2.1)) = some (3, recordOf (fullBody 3))
      ∧ (parseFirst (fullBody 3) State.reset).map (fun p => p.2.2) = some true
      ∧ parseFirst (fullBody 4) State.reset = none
      ∧ (recordOf (fullBody 3)).items
        = [⟨1023, .drop, true, 4095, 480000, some ⟨1, 3⟩, some ⟨255, 0⟩⟩] := by decide +kernel

theorem witness_break_load :
    let s := aired.setCh 1 { aired.ch 1 with queue := [loaded9 .loading] }
    (aired.formed ∧ recordOf (loadBody 1) = loaded9 .loading ∧ recordOf (loadBody 0) = loaded9 .pending
      ∧ itemClamped (itemAt moreBody 6 0) = true
      ∧ itemsOf moreBody 6 1 = [⟨7, .drop, true, 4095, 0, none, none⟩]
      ∧ ((s.ch 1).queue.map fun q => q.number).Nodup)
      ∧ runs .breakLoadFirstPart aired 0x30 ((loadBody 1).set 0 4) (.refused .badField) aired
      ∧ runs .breakLoadContinuation aired 0x30 moreBody (.refused .notFound) aired
      ∧ runs .breakLoadFirstPart aired 0x30 (loadBody 1) (.done false false [1, 1, 1, 127])
        ((aired.setEntry 7 { clip7 with hold := 3 }).setCh 1 { aired.ch 1 with
          queue := [loaded9 .loading] })
      ∧ runs .breakLoadFirstPart s 0x30 (loadBody 0) (.refused .exists_) s
      ∧ runs .breakLoadContinuation s 0x30 moreBody (.done true false [1, 2, 1, 126])
        ((s.setEntry 7 { clip7 with hold := 3 }).setCh 1 { s.ch 1 with
          queue := [{ loaded9 .pending with
            items := [⟨7, .must, false, 3840, 0, none, none⟩, ⟨7, .drop, true, 4095, 0, none, none⟩] }]
          })
      ∧ runs .breakLoadContinuation (loaded break9) 0x30 moreBody (.refused .state) (loaded break9)
      ∧ runs .breakLoadContinuation s 0x30 [1, 0, 9, 1, 2, 0] (.refused .badField) s := by
  decide +kernel

theorem witness_cancel_and_abort :
    let s := loaded break9
    runs .breakCancel s 0x31 [1, 0, 9] (.done false false []) (aired.setEntry 7 { clip7 with hold := 1 })
      ∧ runs .breakAbort aired 0x34 [1] (.refused .state) aired
      ∧ runs .breakAbort (loaded (flying .joining 60)) 0x34 [1] (.done false false [0, 9, 1, 0, 0, 0, 60])
          (loaded (flying .joining 60))
      ∧ after .breakAbort (withCommand (onAirPart 5000) 0x34 [1]) (fun t =>
          (t.ch 1).state == .joining && (t.ch 1).queue.map (fun r => (r.state, r.ret)) ==
            [(.joining, some 100)]) = true
      ∧ after .breakCancel (withCommand (onAirPart 5000) 0x31 [1, 0, 9]) (fun t =>
          (t.ch 1).state == .joining) = true
      ∧ (onAirPart 5000).settled = true := by decide +kernel

theorem witness_abort_withdraws :
    let s (o : PrerollOrigin) : State :=
      let s := prerollPart.setForming .start
      let s := s.setCh 1 { s.ch 1 with origin := some o }
      (s.setVoice 3 { cart6 with state := .primed, owner := some ⟨1, .brk⟩ }).setVoice 4
        { Voice.freed with state := .reserved, owner := some ⟨1, .brk⟩ }
    let t (o : PrerollOrigin) (x : ChannelState) : State :=
      let s := ((s o).setEntry 7 { clip7 with hold := 0 }).setAsrun
        ⟨[{ row with cause := .abort, planned := some 101 }], 0⟩
      ((s.setCh 1 { s.ch 1 with state := x, origin := none, queue := [] }).setVoice 3 .freed).setVoice 4
        .freed
    (s .network).formed ∧ (s .network).flight 1 = (s .network).record 1 9
      ∧ runs .breakAbort (s .network) 0x34 [1] (.done false false [0, 9, 0, 0, 0, 0, 0])
          (t .network .network)
      ∧ runs .breakAbort (s .emergency) 0x34 [1] (.done false false [0, 9, 0, 0, 0, 0, 0])
          (t .emergency .emergency) := by decide +kernel

theorem witness_break_list :
    let s := loaded break9
    let i : List Byte := itemBytes ⟨7, .must, false, 3840, 0, none, none⟩
    runs .breakList s 0x32 [1, 0, 0] (.done false false ([1, 1, 127] ++ summaryBytes 1 break9)) s
      ∧ runs .breakList s 0x32 [1, 0, 9]
          (.done false false ([1, 1, 127] ++ summaryBytes 1 break9 ++ i)) s
      ∧ runs .breakList s 0x32 [1, 255, 255] (.refused .notFound) s
      ∧ (let h : CmdHeader := { hdr 0x32 with maxReply := 49 }
        let c := s.setCmd { s.cmd with queue := [⟨5, h, [1, 0, 9]⟩] }
        dataLimit h = 41 ∧ nextOf (exec .breakList c) = some (replied 5 h
          (.done false true ([1, 1, 127] ++ summaryBytes 1 break9)) s)) := by decide +kernel

theorem witness_break_fire :
    let s := loaded break9
    let poor := s.setReserve 15
    let short := (loaded { break9 with window := 60000 })
    let taken := s.setCh 1 { s.ch 1 with state := .halted }
    after .breakFire (withCommand s 0x33 [1, 0, 0]) (fun t =>
        (t.ch 1).state == .preroll && t.cmd.build.map (fun p => p.payload.drop 8) ==
          [[0, 9, 0, 0, 0, 64, 0, 0, 0, 0, 0, 0, 0, 0x13, 0xC8, 1]]) = true
      ∧ after .breakFire (withCommand poor 0x33 [1, 0, 9]) (fun t =>
        (t.ch 1).queue == [] && t.cmd.build.map (fun p => p.payload.drop 1) ==
          [[2, 0x12, 0x34, 0x10, 0, 0, 0]]) = true
      ∧ after .breakFire (withCommand short 0x33 [1, 0, 9]) (fun t =>
        t.cmd.build.map (fun p => p.payload.drop 8) == [[0, 9] ++ List.replicate 14 0]) = true
      ∧ runs .breakFire taken 0x33 [1, 0, 0] (.refused .state) taken
      ∧ runs .breakFire aired 0x33 [1, 0, 0] (.refused .notFound) aired
      ∧ runs .breakFire s 0x33 [1, 0, 8] (.refused .notFound) s
      ∧ runs .breakFire cue9 0x33 [1, 0, 9] (.refused .state) cue9 := by decide +kernel

theorem witness_voice_trim :
    let s := (onAirPart 5000).setVoice 4 { Voice.freed with
      state := .reserved, owner := some ⟨1, .brk⟩, clip := some 7 }
    (s.flight 1 = some (flying .onAir 5000) ∧ s.settled = true)
      ∧ runs .voiceTrim s 0x35 [1, 255, 255, 0] (.done true false [1])
          (s.setVoice 3 { s.voice 3 with staged := some ⟨4095, 1⟩ })
      ∧ (let one := s.setVoice 4 { Voice.freed with state := .reserved, owner := some ⟨1, .brk⟩ }
        runs .voiceTrim one 0x35 [1, 255, 255, 0] (.done true false [1])
          (one.setVoice 3 { one.voice 3 with staged := some ⟨4095, 1⟩ }))
      ∧ runs .voiceTrim aired 0x35 [1, 0, 0, 0] (.refused .state) aired := by
  decide +kernel

theorem witness_contact_commands :
    runs .gpiSet aired 0x40 [7, 5, 3, 3, 255, 255, 255]
        (.done true false (gpiTable (aired.setGpiLine 7 ⟨false, 0, .cart 3 1023 4095⟩)))
        (aired.setGpiLine 7 ⟨false, 0, .cart 3 1023 4095⟩)
      ∧ runs .gpiSet aired 0x40 [255, 0, 0, 0, 0, 0, 0] (.done false false (gpiTable aired)) aired
      ∧ runs .gpiSet aired 0x40 [8, 0, 0, 0, 0, 0, 0] (.refused .badField) aired
      ∧ runs .gpiSet aired 0x40 [0, 6, 0, 0, 0, 0, 0] (.refused .badField) aired
      ∧ runs .gpoSet aired 0x41 [3, 1, 3]
          (.done false false (gpoTable (aired.setGpo (aired.gpo.set 3 (.onAir 3)))))
          (aired.setGpo (aired.gpo.set 3 (.onAir 3)))
      ∧ runs .gpoSet aired 0x41 [255, 0, 0] (.done false false (gpoTable aired)) aired
      ∧ runs .gpoSet aired 0x41 [4, 0, 0] (.refused .badField) aired
      ∧ runs .gpoSet aired 0x41 [0, 1, 4] (.refused .badField) aired := by
  decide +kernel

/-- The part with n such records and 3 lost. -/
def recorded (n : Nat) : State := aired.setAsrun ⟨List.replicate n row, 3⟩

theorem witness_asrun :
    runs .asrunFetch (recorded 3) 0x50 [0, 2]
        (.done false false ([0, 2, 0, 1, 0, 3, 0, 0] ++ recordBytes row ++ recordBytes row))
        (aired.setAsrun ⟨[row], 0⟩)
      ∧ runs .asrunDiscard (recorded 191) 0x51 [1, 0] (.done false false [0, 191, 0, 0, 0, 3])
          (aired.setAsrun ⟨[], 0⟩)
      ∧ (asrunWrite row (recorded 190) = aired.setAsrun ⟨List.replicate 191 row, 3⟩)
      ∧ (asrunWrite row ((recorded 191).setAlert { aired.alert with mask := 0xFFFFFFF, dest := 9 })).alert.pending
          = true
      ∧ asrunWrite row (recorded 192) = aired.setAsrun ⟨List.replicate 193 row, 3⟩
      ∧ asrunWrite row (recorded 255) = aired.setAsrun ⟨List.replicate 256 row, 3⟩
      ∧ asrunWrite row (recorded 256) = aired.setAsrun ⟨List.replicate 256 row, 4⟩
      ∧ (let h : CmdHeader := { hdr 0x50 with peek := true, maxReply := 16 }
        let s := (recorded 3).setCmd { aired.cmd with queue := [⟨5, h, [0, 0]⟩] }
        nextOf (exec .asrunFetch s) = some (replied 5 h
          (.done false true [0, 0, 0, 3, 0, 3, 1, 0]) (recorded 3))) := by decide +kernel

/-- A state that meets the invariants, and a step from it. -/
theorem witness_invariants :
    State.reset.safe ∧ aired.safe ∧ (nextOf (step (aired.setPending [.command]))).any (fun t =>
      t == aired) = true := by decide +kernel

end Sys2Proof.Tests
end

section
/-! PROOFS. Voices (chapter 3): the output of a voice between two samples (R51) and the position
after it (R52). -/

namespace Sys2Proof.Machine

/-! ### The output: interpolation between two samples (R51) -/

/-- The floored share φ / 65,536 of a difference lies between 0 and the difference. -/
theorem scaledDifference_between (d : Int) {fraction : Nat} (h : fraction < 65536) :
    min 0 d ≤ d * fraction / 65536 ∧ d * fraction / 65536 ≤ max 0 d := by
  have hf : (0 : Int) ≤ fraction ∧ (fraction : Int) ≤ 65536 := by omega
  obtain ⟨hf0, hf1⟩ := hf
  rcases le_total 0 d with hd | hd
  · have low : 0 ≤ d * fraction := mul_nonneg hd hf0
    have high : d * fraction ≤ d * 65536 := mul_le_mul_of_nonneg_left hf1 hd
    omega
  · have high : d * fraction ≤ 0 := mul_nonpos_of_nonpos_of_nonneg hd hf0
    have low : d * 65536 ≤ d * fraction := mul_le_mul_of_nonpos_left hf1 hd
    omega

theorem interpolate_between (s0 s1 : Int) {fraction : Nat} (h : fraction < 65536) :
    min s0 s1 ≤ interpolate s0 s1 fraction ∧ interpolate s0 s1 fraction ≤ max s0 s1 := by
  obtain ⟨low, high⟩ := scaledDifference_between (s1 - s0) h
  unfold interpolate
  omega

theorem clipSample_eq_readWord (s : State) (e : DirEntry) (i side : Nat) :
    s.clipSample e i side =
      (s.readWord (s.wordAddress e (if e.layout = .mono then i else 2 * i + side))).toInt := rfl

theorem clipSample_mono (s : State) {e : DirEntry} (h : e.layout = .mono) (i side : Nat) :
    s.clipSample e i side = (s.readWord (s.wordAddress e i)).toInt := by
  rw [clipSample_eq_readWord, if_pos h]

theorem voiceOutput_mono (s : State) (x : Voice) {e : DirEntry} (h : e.layout = .mono)
    (side side' : Nat) : s.voiceOutput x e side = s.voiceOutput x e side' := by
  simp only [State.voiceOutput, clipSample_mono s h]

theorem wordAddress_library (s : State) {e : DirEntry} (h : e.region = .library) (n : Nat) :
    s.wordAddress e n = BitVec.ofNat 28 (e.firstPage * 65536 + n) := by
  simp only [State.wordAddress, h, Config.pageWords]

theorem wordAddress_ring (s : State) {e : DirEntry} (h : e.region = .ring) (n : Nat) :
    s.wordAddress e n = BitVec.ofNat 28 (s.store.lp * 65536
      + ((e.firstPage - s.store.lp) * 65536 + n) % ((4096 - s.store.lp) * 65536)) := by
  simp only [State.wordAddress, h, Config.pageWords, Store.ringPages, Config.pages]

/-- Settles O23: the bounds are those of the interpolation, the rest is read off the equations of
the sample and its address. -/
theorem voiceOutputInterpolates : Obligations.VoiceOutputInterpolates := by
  intro s x e side hf
  obtain ⟨low, high⟩ := interpolate_between (s.clipSample e x.index side)
    (s.clipSample e (x.nextIndex e.length) side) hf
  exact ⟨rfl, low, high, fun h => voiceOutput_mono s x h 0 1,
    fun i => clipSample_eq_readWord s e i side,
    fun n h => wordAddress_library s h n, fun n h => wordAddress_ring s h n⟩

/-! ### The position after an output (R52) -/

theorem advance_inside {x : Voice} {length : Nat} (hl : x.loop = none)
    (h : x.index + (x.fraction + x.step) / 65536 < length) :
    x.advance length = { x with
      index := x.index + (x.fraction + x.step) / 65536
      fraction := (x.fraction + x.step) % 65536 } := by
  simp only [Voice.advance, hl, if_neg (Nat.not_le.mpr h)]

theorem advance_atEnd {x : Voice} {length : Nat} (hl : x.loop = none)
    (h : length ≤ x.index + (x.fraction + x.step) / 65536) :
    x.advance length = { x with index := length, fraction := 0 } := by
  simp only [Voice.advance, hl, if_pos h]

theorem advance_looped {x : Voice} {first stop : Nat} (length : Nat)
    (hl : x.loop = some (first, stop)) :
    let i := x.index + (x.fraction + x.step) / 65536
    x.advance length = { x with
      index := if stop ≤ i then first + (i - first) % (stop - first) else i
      fraction := (x.fraction + x.step) % 65536 } := by
  simp only [Voice.advance, hl]

theorem advance_keeps (x : Voice) (length : Nat) :
    x.advance length =
      { x with index := (x.advance length).index, fraction := (x.advance length).fraction } := by
  cases hl : x.loop with
  | none =>
    rcases Nat.lt_or_ge (x.index + (x.fraction + x.step) / 65536) length with h | h
    · rw [advance_inside hl h, hl]
    · rw [advance_atEnd hl h, hl]
  | some l => rw [advance_looped length hl, hl]

theorem advance_index_le_of_no_loop {x : Voice} (length : Nat) (hl : x.loop = none) :
    (x.advance length).index ≤ length := by
  rcases Nat.lt_or_ge (x.index + (x.fraction + x.step) / 65536) length with h | h
  · rw [advance_inside hl h]
    exact h.le
  · rw [advance_atEnd hl h]

/-- An index at or past the loop's stop comes back into the loop by whole spans, at least one. -/
theorem loopCorrection_spec {first stop i : Nat} (hs : first < stop) (h : stop ≤ i) :
    let j := first + (i - first) % (stop - first)
    (∃ k, 1 ≤ k ∧ i = j + k * (stop - first)) ∧ first ≤ j ∧ j < stop := by
  have hpos : 0 < stop - first := Nat.sub_pos_of_lt hs
  have hmod := Nat.mod_lt (i - first) hpos
  refine ⟨⟨(i - first) / (stop - first), ?_, ?_⟩, Nat.le_add_right .., by omega⟩
  · exact Nat.div_pos (Nat.sub_le_sub_right h first) hpos
  · have hdiv := Nat.mod_add_div' (i - first) (stop - first)
    omega

/-- Below two spans past the loop's start, one span off is enough. -/
theorem loopCorrection_once {first stop i : Nat} (hs : first < stop) (h : stop ≤ i)
    (h2 : i - first < 2 * (stop - first)) :
    first + (i - first) % (stop - first) = i - (stop - first) := by
  rw [Nat.mod_eq_sub_mod (by omega), Nat.mod_eq_of_lt (by omega)]
  omega

theorem advance_in_loop {x : Voice} (length : Nat) {first stop : Nat}
    (hl : x.loop = some (first, stop)) (hs : first < stop) :
    let i := x.index + (x.fraction + x.step) / 65536
    let y := x.advance length
    y.fraction = (x.fraction + x.step) % 65536
      ∧ (i < stop → y.index = i)
      ∧ (stop ≤ i → (∃ k, 1 ≤ k ∧ i = y.index + k * (stop - first))
          ∧ first ≤ y.index ∧ y.index < stop)
      ∧ (x.index < stop → x.fraction < 65536 → x.step < 131072 → 32 ≤ stop - first →
          stop ≤ i → y.index = i - (stop - first))
      ∧ (stop ≤ length → y.index ≤ length) := by
  intro i y
  have hy : y = { x with
      index := if stop ≤ i then first + (i - first) % (stop - first) else i
      fraction := (x.fraction + x.step) % 65536 } := advance_looped length hl
  have before (h : i < stop) : y.index = i := by rw [hy]; exact if_neg (Nat.not_le.mpr h)
  have past (h : stop ≤ i) : y.index = first + (i - first) % (stop - first) := by
    rw [hy]; exact if_pos h
  refine ⟨by rw [hy], before, fun h => ?_, fun hx hf hstep hspan h => ?_, fun hlen => ?_⟩
  · rw [past h]
    exact loopCorrection_spec hs h
  · rw [past h]
    have moved : i ≤ x.index + 2 := by omega
    exact loopCorrection_once hs h (by omega)
  · have inside : y.index < stop := by
      rcases Nat.lt_or_ge i stop with h | h
      · rwa [before h]
      · obtain ⟨_, _, below⟩ := loopCorrection_spec hs h
        rwa [past h]
    omega

/-- Settles O24, by the loop: without one the voice is inside the clip or at its end, with one the
index is corrected by whole spans. -/
theorem voicePositionAdvances : Obligations.VoicePositionAdvances := by
  intro x length i y
  refine ⟨advance_keeps x length, fun hl h => ?_, fun hl h => ?_,
    fun first stop hl hs => advance_in_loop length hl hs, advance_index_le_of_no_loop length⟩
  · rw [show y = _ from advance_inside hl h]
    exact ⟨rfl, rfl⟩
  · rw [show y = _ from advance_atEnd hl h]
    exact ⟨rfl, rfl⟩

end Sys2Proof.Machine
end

section
/-! PROOFS. Command rows (sections 11.1 and 11.2), and the commands IDENTIFY (R186) and ALERT_CLEAR
(R192). -/

namespace Sys2Proof.Machine

open Claim

/-! ### A command row on a waiting command (R182 to R184) -/

@[simp] theorem taken_lane (s : State) (rest : List Command) : (taken s rest).lane = s.lane := rfl
@[simp] theorem taken_alert (s : State) (rest : List Command) :
    (taken s rest).alert = s.alert := rfl
@[simp] theorem taken_cmd (s : State) (rest : List Command) :
    (taken s rest).cmd = { s.cmd with queue := rest } := rfl

theorem sized_of_length {n : Nat} {f : List Byte → State → Reply × State} {src : Byte}
    {h : CmdHeader} {body : List Byte} (s : State) (hlen : body.length = n) :
    sized n f ⟨src, h, body⟩ s = f body s := if_pos hlen

theorem answer_eq_replied (src : Byte) (h : CmdHeader) (body : List Byte) (r : Reply) (t : State) :
    answer ⟨src, h, body⟩ false (limitReply (dataLimit h) r) t = replied src h r t := by
  simp only [answer, replied, Bool.false_or]

/-- The row of a code and a body length runs its command on the state with the command taken. -/
theorem answers_of_sized {i : Instr} {code n : Nat} {f : List Byte → State → Reply × State}
    {s : State} {src : Byte} {h : CmdHeader} {body : List Byte} {rest : List Command}
    (hexec : exec i s = runRow (hasCode code) false (sized n f) s)
    (hready : ready s src h body rest) (hcode : h.code = code) (hlen : body.length = n) :
    answers i s src h (f body (taken s rest)).1 (f body (taken s rest)).2 := by
  obtain ⟨settled, noBuild, queue⟩ := hready
  have row : hasCode code ⟨src, h, body⟩ = true := beq_iff_eq.mpr hcode
  rw [answers, hexec, runRow_due settled noBuild queue row, sized_of_length _ hlen,
    answer_eq_replied]
  rfl

/-! ### A reply of one packet (R184) -/

theorem limitReply_of_fits {limit : Nat} {data : List Byte} (clamped truncated : Bool)
    (h : data.length ≤ limit) :
    limitReply limit (.done clamped truncated data) = .done clamped truncated data := by
  simp only [limitReply, decide_eq_false (Nat.not_lt.mpr h), Bool.or_false,
    List.take_of_length_le h]

theorem pieces_nil (k n : Nat) : pieces k n [] = [] := by
  cases n with
  | zero => rfl
  | succ n => rfl

theorem replyPackets_of_short (dest src : Byte) (code tag : Nat) {r : Reply}
    (h : r.data.length ≤ 192) :
    replyPackets dest src code tag r = [{
      kind := 0x30, dest := dest, src := src
      payload := replyHeader code tag r ++ r.data }] := by
  simp only [replyPackets, List.take_of_length_le h, List.drop_of_length_le h, pieces_nil,
    List.map_nil]

theorem made_of_data {clamped truncated : Bool} {data : List Byte} (ack : Bool) (h : data ≠ []) :
    (Reply.done clamped truncated data).made ack = true := by
  cases data with
  | nil => exact absurd rfl h
  | cons b l => simp [Reply.made]

theorem replyHeader_ok (code tag : Nat) (data : List Byte) :
    replyHeader code tag (.done false false data) =
      toBytes code 1 ++ [0] ++ toBytes tag 2 ++ [0, 0] ++ toBytes data.length 2 := by
  have status : toBytes 0 1 = [0] := by decide
  have errors : toBytes 0 2 = [0, 0] := by decide
  simp only [replyHeader, Reply.status, Reply.errorSet, Reply.data, Bool.false_eq_true, if_false,
    Nat.add_zero, status, errors]

/-- Data within the data limit and one packet is sent in one REPLY, whatever ACK is. -/
theorem replied_of_fits {src : Byte} {h : CmdHeader} {clamped truncated : Bool} {data : List Byte}
    (t : State) (nonempty : data ≠ []) (fits : data.length ≤ dataLimit h)
    (short : data.length ≤ 192) :
    replied src h (.done clamped truncated data) t = t.setCmd { t.cmd with
      build := [{
        kind := 0x30, dest := src, src := t.lane.unitAddr
        payload := replyHeader h.code h.tag (.done clamped truncated data) ++ data }] } := by
  simp only [replied, limitReply_of_fits clamped truncated fits, made_of_data h.ack nonempty,
    if_true]
  rw [replyPackets_of_short (r := .done clamped truncated data) _ _ _ _ short]
  rfl

/-! ### IDENTIFY (R186) -/

theorem exec_identify (s : State) :
    exec .identify s = runRow (hasCode 0x01) false (sized 0 identify) s := rfl

theorem identityRecord_eq (s : State) :
    identityRecord s = [0x52, 0x41, 0x2D, 0x34, 0x31, 0x36, 1, s.lane.straps, s.lane.unitAddr,
      s.lane.groupAddr, 0x04, 0x00, 16, 4, 0x01, 0x00] := rfl

theorem identityRecord_length (s : State) : (identityRecord s).length = 16 := rfl

theorem identify_answers {s : State} {src : Byte} {h : CmdHeader} {rest : List Command}
    (hready : ready s src h [] rest) (hcode : h.code = 0x01) :
    answers .identify s src h (.done false false (identityRecord (taken s rest))) (taken s rest) :=
  answers_of_sized (exec_identify s) hready hcode rfl

/-- Settles O40: the row answers the identity record, which the data limit admits and one packet
carries. -/
theorem identifyReturnsTheIdentity : Obligations.IdentifyReturnsTheIdentity := by
  intro s src h rest hready hcode hlimit
  have size := identityRecord_length (taken s rest)
  have run : exec .identify s = .next (replied ..) := identify_answers hready hcode
  have nonempty : identityRecord (taken s rest) ≠ [] :=
    List.ne_nil_of_length_pos (by omega)
  rw [run, replied_of_fits (taken s rest) nonempty (by omega) (by omega), replyHeader_ok, size,
    identityRecord_eq, taken_lane, taken_cmd, List.append_assoc _ [0, 0]]
  rfl

/-! ### ALERT_CLEAR (R191, R192) -/

theorem exec_alertClear (s : State) :
    exec .alertClear s = runRow (hasCode 0x06) false (sized 0 alertClear) s := rfl

theorem clearAlert_of_idle {s : State} (h : s.alert.pending = false) :
    clearAlert s = (false, s) := by
  simp [clearAlert, h]

theorem clearAlert_of_unchanged {s : State} (hp : s.alert.pending = true)
    (hc : s.alert.changed = 0) :
    clearAlert s = (false, s.setAlert { s.alert with pending := false }) := by
  rw [clearAlert, if_pos hp, if_pos hc]

theorem clearAlert_of_changed {s : State} (hp : s.alert.pending = true)
    (hc : s.alert.changed ≠ 0) : clearAlert s = (true, buildAlert s) := by
  rw [clearAlert, if_pos hp, if_neg hc]

theorem buildAlert_pending (s : State) : (buildAlert s).alert.pending = s.alert.pending := rfl

theorem buildAlert_of_noReady {s : State} (h : s.alert.ready = none) :
    buildAlert s = s.setAlert { s.alert with
      number := (s.alert.number + 1) % 256, changed := 0, lockCount := 0
      ready := some {
        dest := s.alert.dest, src := s.lane.unitAddr, number := (s.alert.number + 1) % 256
        changed := s.alert.changed, snapshot := s.snapshot
        lockCount := min s.alert.lockCount 255, ac := s.clock.ac } } := by
  simp only [buildAlert, h, BitVec.ofNat_eq_ofNat, BitVec.or_zero, Nat.add_zero]

/-- The new ALERT carries what the one it replaces had not delivered (R191). -/
theorem buildAlert_of_ready {s : State} {r : ReadyAlert} (h : s.alert.ready = some r) :
    buildAlert s = s.setAlert { s.alert with
      number := (s.alert.number + 1) % 256, changed := 0, lockCount := 0
      ready := some {
        dest := s.alert.dest, src := s.lane.unitAddr, number := (s.alert.number + 1) % 256
        changed := s.alert.changed ||| r.changed, snapshot := s.snapshot
        lockCount := min (s.alert.lockCount + r.lockCount) 255, ac := s.clock.ac } } := by
  simp only [buildAlert, h]

theorem alertClear_answers {s : State} {src : Byte} {h : CmdHeader} {rest : List Command}
    (hready : ready s src h [] rest) (hcode : h.code = 0x06) {built : Bool} {t : State}
    (hclear : clearAlert (taken s rest) = (built, t)) :
    answers .alertClear s src h
      (.done false false [flagByte built, flagByte t.alert.pending]) t := by
  have run := answers_of_sized (exec_alertClear s) hready hcode rfl
  rwa [alertClear, hclear] at run

/-- With changes waiting, an ALERT is built and the flag stays set. -/
theorem alertClear_answers_of_changed {s : State} {src : Byte} {h : CmdHeader} {rest : List Command}
    (hready : ready s src h [] rest) (hcode : h.code = 0x06) (hp : s.alert.pending = true)
    (hc : s.alert.changed ≠ 0) :
    answers .alertClear s src h (.done false false [1, 1]) (buildAlert (taken s rest)) := by
  have run := alertClear_answers hready hcode (clearAlert_of_changed (s := taken s rest) hp hc)
  rwa [buildAlert_pending, taken_alert, hp] at run

/-- Settles O45, by the pending flag, the changed set and the ready ALERT. -/
theorem alertClearAcknowledges : Obligations.AlertClearAcknowledges := by
  intro s src h rest hready hcode u
  refine ⟨fun hp hc => ?unchanged, fun hp hc hr => ?built, fun hp hc r hr => ?replaced,
    fun hp => ?idle⟩
  case unchanged =>
    exact alertClear_answers hready hcode (clearAlert_of_unchanged (s := u) hp hc)
  case built =>
    have run := alertClear_answers_of_changed hready hcode hp hc
    rwa [buildAlert_of_noReady (s := u) hr] at run
  case replaced =>
    have run := alertClear_answers_of_changed hready hcode hp hc
    rwa [buildAlert_of_ready (s := u) hr] at run
  case idle =>
    have run := alertClear_answers hready hcode (clearAlert_of_idle (s := u) hp)
    rwa [show u.alert.pending = false from hp] at run

end Sys2Proof.Machine
end

section
/-! PROOFS. The canonical form of the directory and the seven capacities, kept by every operation
(R7, R15, R22, R104, R169, R181, R184). -/

namespace Sys2Proof.Machine

/-- State s holds what it must of r: the directory stays canonical, no queue grows past its capacity,
and the transit does not grow (an ingress frame alone lengthens it). -/
structure State.Keeps (r s : State) : Prop where
  directory : Canonical DirEntry.blank r.store.directory →
    Canonical DirEntry.blank s.store.directory
  asrun : r.asrun.records.length ≤ 256 → s.asrun.records.length ≤ 256
  replies : r.cmd.replies.length ≤ 16 → s.cmd.replies.length ≤ 16
  commands : r.cmd.queue.length ≤ 8 → s.cmd.queue.length ≤ 8
  fifo : fifoDepth r.tx.fifo ≤ 512 → fifoDepth s.tx.fifo ≤ 512
  transit : s.tx.transit.length ≤ r.tx.transit.length
  armList : r.store.armList.length ≤ 8 → s.store.armList.length ≤ 8
  breaks : (∀ c, (r.ch c).queue.length ≤ 8) → ∀ c, (s.ch c).queue.length ≤ 8

theorem State.Keeps.refl (s : State) : s.Keeps s := ⟨id, id, id, id, id, le_rfl, id, id⟩

variable {r s : State}

theorem State.Keeps.withinCapacity (h : r.Keeps s) (hr : r.withinCapacity) : s.withinCapacity := by
  obtain ⟨asrun, replies, commands, fifo, transit, arms, breaks⟩ := hr
  exact ⟨h.asrun asrun, h.replies replies, h.commands commands, h.fifo fifo, h.transit.trans transit,
    h.armList arms, h.breaks breaks⟩

/-! ### The setters -/

theorem keeps_setRx (h : r.Keeps s) (x : Receiver) : r.Keeps (s.setRx x) := { h with }
theorem keeps_setLane (h : r.Keeps s) (x : Lane) : r.Keeps (s.setLane x) := { h with }
theorem keeps_setClock (h : r.Keeps s) (x : AirClock) : r.Keeps (s.setClock x) := { h with }
theorem keeps_setCues (h : r.Keeps s) (x : CueCounters) : r.Keeps (s.setCues x) := { h with }
theorem keeps_setMemory (h : r.Keeps s) (x : List (Nat × Sample)) : r.Keeps (s.setMemory x) :=
  { h with }
theorem keeps_setVoices (h : r.Keeps s) (x : Vector Voice 16) : r.Keeps (s.setVoices x) :=
  { h with }
theorem keeps_setVoice (h : r.Keeps s) (v : Fin 16) (x : Voice) : r.Keeps (s.setVoice v x) :=
  { h with }
theorem keeps_setEvents (h : r.Keeps s) (x : List VoiceEvent) : r.Keeps (s.setEvents x) :=
  { h with }
theorem keeps_setReserve (h : r.Keeps s) (x : Nat) : r.Keeps (s.setReserve x) := { h with }
theorem keeps_setGpi (h : r.Keeps s) (x : Vector GpiLine 8) : r.Keeps (s.setGpi x) := { h with }
theorem keeps_setGpiLine (h : r.Keeps s) (g : Fin 8) (x : GpiLine) : r.Keeps (s.setGpiLine g x) :=
  { h with }
theorem keeps_setGpo (h : r.Keeps s) (x : Vector GpoFunction 4) : r.Keeps (s.setGpo x) := { h with }
theorem keeps_setAlert (h : r.Keeps s) (x : AlertUnit) : r.Keeps (s.setAlert x) := { h with }
theorem keeps_setForming (h : r.Keeps s) (x : Forming) : r.Keeps (s.setForming x) := { h with }
theorem keeps_setPending (h : r.Keeps s) (x : List Instr) : r.Keeps (s.setPending x) := { h with }

theorem keeps_setAsrun (h : r.Keeps s) {x : AsRunQueue}
    (hx : s.asrun.records.length ≤ 256 → x.records.length ≤ 256) : r.Keeps (s.setAsrun x) :=
  { h with asrun := fun hr => hx (h.asrun hr) }

theorem keeps_setCmd (h : r.Keeps s) {x : CommandUnit}
    (hp : s.cmd.replies.length ≤ 16 → x.replies.length ≤ 16)
    (hq : s.cmd.queue.length ≤ 8 → x.queue.length ≤ 8) : r.Keeps (s.setCmd x) :=
  { h with
    replies := fun hr => hp (h.replies hr)
    commands := fun hr => hq (h.commands hr) }

theorem keeps_setTx (h : r.Keeps s) {x : Egress}
    (hf : fifoDepth s.tx.fifo ≤ 512 → fifoDepth x.fifo ≤ 512)
    (ht : x.transit.length ≤ s.tx.transit.length) : r.Keeps (s.setTx x) :=
  { h with
    fifo := fun hr => hf (h.fifo hr)
    transit := ht.trans h.transit }

theorem keeps_setStore (h : r.Keeps s) {x : Store} (hd : x.directory = s.store.directory)
    (ha : s.store.armList.length ≤ 8 → x.armList.length ≤ 8) : r.Keeps (s.setStore x) :=
  { h with
    directory := fun hr => by rw [State.setStore_store, hd]; exact h.directory hr
    armList := fun hr => ha (h.armList hr) }

theorem keeps_setEntry (h : r.Keeps s) (n : Nat) (e : DirEntry) : r.Keeps (s.setEntry n e) :=
  { h with directory := fun hr => setEntry_canonical s n e (h.directory hr) }

theorem keeps_setCh (h : r.Keeps s) {c : Fin 4} {x : Channel}
    (hx : (s.ch c).queue.length ≤ 8 → x.queue.length ≤ 8) : r.Keeps (s.setCh c x) :=
  { h with
    breaks := fun hr d => by
      rw [State.ch_setCh]
      split
      · exact hx (h.breaks hr c)
      · exact h.breaks hr d }

theorem keeps_setMonitor (h : r.Keeps s) (c : Fin 4) (m : Monitor) : r.Keeps (s.setMonitor c m) :=
  keeps_setCh h id

/-! ### Folds -/

theorem keeps_foldl {β : Type} {f : State → β → State}
    (hf : ∀ (t : State) (b : β), r.Keeps t → r.Keeps (f t b)) (l : List β) (h : r.Keeps s) :
    r.Keeps (l.foldl f s) := by
  induction l generalizing s with
  | nil => exact h
  | cons b l ih => exact ih (hf s b h)

theorem keeps_forChannels {f : Fin 4 → State → State}
    (hf : ∀ (c : Fin 4) (t : State), r.Keeps t → r.Keeps (f c t)) (h : r.Keeps s) :
    r.Keeps (forChannels f s) :=
  keeps_foldl (fun t c => hf c t) _ h

/-! ### Alerts, as-run records and replies -/

theorem keeps_raiseAlert (h : r.Keeps s) (src : AlertSource) : r.Keeps (raiseAlert src s) := by
  rw [raiseAlert_eq]
  exact keeps_setAlert h _

theorem keeps_clearAlert (h : r.Keeps s) : r.Keeps (clearAlert s).2 := by
  grind [clearAlert, buildAlert, keeps_setAlert]

theorem keeps_asrunWrite (h : r.Keeps s) (x : AsRunRecord) : r.Keeps (asrunWrite x s) := by
  rw [asrunWrite_eq]
  exact keeps_setAlert (keeps_setAsrun h (asrunWrite_length x s)) _

theorem keeps_asrunWriteAll (h : r.Keeps s) (l : List AsRunRecord) : r.Keeps (asrunWriteAll l s) :=
  keeps_foldl (fun _ x ht => keeps_asrunWrite ht x) l h

theorem keeps_asrunRemove (h : r.Keeps s) (n : Nat) : r.Keeps (asrunRemove n s) := by
  have removed : r.Keeps (s.setAsrun { s.asrun with records := s.asrun.records.drop n }) :=
    keeps_setAsrun h fun hs => by simp only [List.length_drop]; omega
  grind [asrunRemove, keeps_raiseAlert]

theorem keeps_drawFree (h : r.Keeps s) : r.Keeps (drawFree s) := keeps_setCmd h id id

theorem keeps_answer (h : r.Keeps s) (c : Command) (always : Bool) (x : Reply) :
    r.Keeps (answer c always x s) := by
  grind [answer, keeps_setCmd]

theorem keeps_immediateReport (h : r.Keeps s) (dest : Byte) (code tag : Nat) (f : ErrFlag) :
    r.Keeps (immediateReport dest code tag f s) := by
  have one : (replyPackets dest s.lane.unitAddr code tag (.refused f)).length = 1 := rfl
  unfold immediateReport
  split
  · next room => exact keeps_setCmd h (fun _ => by simpa [one] using room) id
  · exact keeps_setCmd h id id

theorem keeps_queueReply (h : r.Keeps s) : r.Keeps (queueReply s) := by
  unfold queueReply
  split
  · exact h
  · split
    · next room => exact keeps_setCmd h (fun _ => by simpa using room) id
    · exact h

theorem keeps_queueReplies (h : r.Keeps s) : r.Keeps (queueReplies s) :=
  keeps_setCmd h (fun _ => by
    simp only [List.length_append, List.length_take, Config.replyQueue]; omega) id

/-! ### The clip store -/

theorem keeps_emptyEntry (h : r.Keeps s) (n : Nat) : r.Keeps (emptyEntry n s) := keeps_setEntry h ..

theorem keeps_holdClip {n : Nat} {t : State} (h : r.Keeps s) (ht : holdClip n s = some t) :
    r.Keeps t := by
  grind [holdClip, keeps_setEntry]

theorem keeps_releaseHold (h : r.Keeps s) (n : Nat) : r.Keeps (releaseHold n s) :=
  keeps_setEntry h ..

theorem keeps_retireOldest (h : r.Keeps s) : r.Keeps (retireOldest s) := by
  grind [retireOldest, keeps_setStore, keeps_emptyEntry]

theorem keeps_retire (n : Nat) (h : r.Keeps s) : r.Keeps (retire n s).2 := by
  induction n generalizing s with
  | zero => exact h
  | succ n ih => grind [retire, keeps_retireOldest]

theorem keeps_reportIngest (h : r.Keeps s) (n : Nat) (o : IngestOutcome) (l : Nat) :
    r.Keeps (reportIngest n o l s) := by
  grind [reportIngest, keeps_raiseAlert, keeps_setStore]

theorem keeps_joinRing (h : r.Keeps s) (n : Nat) : r.Keeps (joinRing n s) := keeps_setStore h rfl id

theorem keeps_endIngest (h : r.Keeps s) (o : IngestOutcome) : r.Keeps (endIngest o s) := by
  grind [endIngest, keeps_setEntry, keeps_emptyEntry, keeps_joinRing, keeps_reportIngest]

theorem keeps_discardIngest (h : r.Keeps s) (o : IngestOutcome) : r.Keeps (discardIngest o s) := by
  grind [discardIngest, keeps_emptyEntry, keeps_reportIngest]

theorem keeps_settleIngest (h : r.Keeps s) : r.Keeps (settleIngest s) := by
  grind [settleIngest, keeps_endIngest]

theorem keeps_startIngest (h : r.Keeps s) (a : Arm) (start : Option (AC × AC)) :
    r.Keeps (startIngest a start s) := by
  grind [startIngest, keeps_setEntry, keeps_setStore, keeps_discardIngest, List.length_filter_le]

theorem keeps_writeWord (h : r.Keeps s) (a : BitVec 28) (w : Sample) : r.Keeps (s.writeWord a w) :=
  keeps_setMemory h _

theorem keeps_captureWords (l : List Sample) (h : r.Keeps s) : r.Keeps (captureWords l s) := by
  induction l generalizing s with
  | nil => exact h
  | cons w l ih => grind [captureWords, keeps_setStore, keeps_discardIngest, keeps_writeWord]

theorem keeps_captureFrame (h : r.Keeps s) (f : TransitFrame) : r.Keeps (captureFrame f s) := by
  grind [captureFrame, keeps_setStore, keeps_captureWords]

theorem keeps_storeRecordStart (h : r.Keeps s) (key : BitVec 32) (start ref : AC) :
    r.Keeps (storeRecordStart key start ref s).2 := by
  grind [storeRecordStart, keeps_startIngest]

theorem keeps_storeRecordStop (h : r.Keeps s) (key : BitVec 32) (stop : AC) :
    r.Keeps (storeRecordStop key stop s).2 := by
  grind [storeRecordStop, keeps_setStore, keeps_endIngest]

theorem keeps_storeDeviceReset (h : r.Keeps s) : r.Keeps (storeDeviceReset s) :=
  keeps_setStore (keeps_foldl (fun _ n ht => keeps_emptyEntry ht n) _ h) rfl fun _ => Nat.zero_le 8

/-! ### Voices -/

theorem keeps_claimBreak {c : Fin 4} {t : State} {a b : Fin 16} (h : r.Keeps s)
    (ht : claimBreak c s = some (a, b, t)) : r.Keeps t := by
  grind [claimBreak, keeps_setVoice]

theorem keeps_claimOne {c : Fin 4} {p : Purpose} {clip : Nat} {t : State} {v : Fin 16}
    (h : r.Keeps s) (ht : claimOne c p clip s = .ok (v, t)) : r.Keeps t := by
  grind [claimOne, keeps_setVoice, keeps_holdClip]

theorem keeps_raiseEvent (h : r.Keeps s) (k : EventKind) (v : Fin 16) (a : AC) :
    r.Keeps (raiseEvent k v a s) :=
  keeps_setEvents h _

theorem keeps_releaseVoice (h : r.Keeps s) (v : Fin 16) : r.Keeps (releaseVoice v s) := by
  grind [releaseVoice, keeps_setVoice, keeps_releaseHold, keeps_setEvents]

theorem keeps_releaseChannelVoices (h : r.Keeps s) (c : Fin 4) :
    r.Keeps (releaseChannelVoices c s) :=
  keeps_foldl (by grind [keeps_releaseVoice]) _ h

theorem keeps_primeHold {x : Voice} {clip : Nat} {t : State} (h : r.Keeps s)
    (ht : primeHold x clip s = some t) : r.Keeps t := by
  grind [primeHold, keeps_holdClip, keeps_releaseHold]

theorem keeps_primeVoice (h : r.Keeps s) (v : Fin 16) (q : PrimeReq) :
    r.Keeps (primeVoice v q s).2 := by
  grind [primeVoice, keeps_primeHold, keeps_setVoice]

theorem keeps_stopVoice (h : r.Keeps s) (k : EventKind) (v : Fin 16) (a : AC) :
    r.Keeps (stopVoice k v a s) :=
  keeps_raiseEvent (keeps_setVoice h v _) k v a

theorem keeps_fadeToZero (h : r.Keeps s) (v : Fin 16) (j : Nat) : r.Keeps (fadeToZero v j s).2 := by
  grind [fadeToZero, keeps_stopVoice, keeps_setVoice]

theorem keeps_rampVoice (h : r.Keeps s) (v : Fin 16) (t p i : Nat) (b : Bool) :
    r.Keeps (rampVoice v t p i b s).2 := by
  grind [rampVoice, keeps_setVoice]

theorem keeps_stageVoice (h : r.Keeps s) (v : Fin 16) (t p : Nat) :
    r.Keeps (stageVoice v t p s).2 := by
  grind [stageVoice, keeps_setVoice]

theorem keeps_cancelVoice (h : r.Keeps s) (v : Fin 16) : r.Keeps (cancelVoice v s).2 := by
  grind [cancelVoice, keeps_setVoice, keeps_fadeToZero]

theorem keeps_playVoice (h : r.Keeps s) (v : Fin 16) : r.Keeps (playVoice v s) := by
  grind [playVoice, keeps_setVoice, keeps_setForming, keeps_stopVoice]

theorem keeps_startVoice (h : r.Keeps s) (v : Fin 16) : r.Keeps (startVoice v s) :=
  keeps_raiseEvent (keeps_setVoice h v _) ..

theorem keeps_handleVoice (h : r.Keeps s) (v : Fin 16) : r.Keeps (handleVoice v s) := by
  grind [handleVoice, keeps_startVoice, keeps_playVoice]

theorem keeps_handleThrough (h : r.Keeps s) (n : Nat) : r.Keeps (handleThrough n s) :=
  keeps_foldl (by grind [keeps_handleVoice, keeps_setForming]) _ h

theorem keeps_startThrough (h : r.Keeps s) (v : Fin 16) : r.Keeps (startThrough v s) := by
  grind [startThrough, keeps_handleThrough, keeps_startVoice]

theorem keeps_voiceShift (h : r.Keeps s) (d : AC) : r.Keeps (voiceShift d s) :=
  keeps_setEvents (keeps_setVoices h _) _

/-! ### The mixer -/

theorem keeps_setChannelState (h : r.Keeps s) (c : Fin 4) (x : ChannelState) :
    r.Keeps (setChannelState c x s) := by
  grind [setChannelState, keeps_setCh, keeps_raiseAlert]

theorem keeps_fadeGain (h : r.Keeps s) (c : Fin 4) (l j : Nat) : r.Keeps (fadeGain c l j s) :=
  keeps_setCh h id

theorem keeps_requestPreroll (h : r.Keeps s) (c : Fin 4) : r.Keeps (requestPreroll c s).2 := by
  grind [requestPreroll, keeps_setChannelState, keeps_setCh]

theorem keeps_finishReturn (h : r.Keeps s) (c : Fin 4) : r.Keeps (finishReturn c s) := by
  grind [finishReturn, keeps_setChannelState, keeps_setCh]

theorem keeps_requestWithdraw (h : r.Keeps s) (c : Fin 4) : r.Keeps (requestWithdraw c s) := by
  grind [requestWithdraw, keeps_setChannelState, keeps_setCh, keeps_finishReturn]

theorem keeps_requestOpen (h : r.Keeps s) (c : Fin 4) (l : Nat) : r.Keeps (requestOpen c l s).2 := by
  grind [requestOpen, keeps_setChannelState, keeps_setCh, keeps_fadeGain]

theorem keeps_requestJoin (h : r.Keeps s) (c : Fin 4) : r.Keeps (requestJoin c s) := by
  grind [requestJoin, keeps_setChannelState, keeps_setCh, keeps_fadeGain]

theorem keeps_requestEmergency (h : r.Keeps s) (c : Fin 4) : r.Keeps (requestEmergency c s).2 := by
  grind [requestEmergency, keeps_setChannelState, keeps_setCh, keeps_fadeGain]

theorem keeps_requestRecover (h : r.Keeps s) (c : Fin 4) : r.Keeps (requestRecover c s) := by
  grind [requestRecover, keeps_setCh, keeps_fadeGain]

theorem keeps_requestEmergencyClear (h : r.Keeps s) (c : Fin 4) :
    r.Keeps (requestEmergencyClear c s) := by
  grind [requestEmergencyClear, keeps_setCh, keeps_finishReturn]

theorem keeps_moveGain (h : r.Keeps s) (c : Fin 4) : r.Keeps (moveGain c s) := by
  grind [moveGain, keeps_setCh]

theorem keeps_moveDuck (h : r.Keeps s) (c : Fin 4) : r.Keeps (moveDuck c s) := keeps_setCh h id

theorem keeps_countSaturation (h : r.Keeps s) (c : Fin 4) (b : Bool) :
    r.Keeps (countSaturation c b s) := by
  grind [countSaturation, keeps_setCh, keeps_raiseAlert]

theorem keeps_mixChannel (h : r.Keeps s) (c : Fin 4) (f : Option (Vector Sample 16))
    (slots : Vector Sample 16) : r.Keeps (mixChannel c f slots s).2 := by
  grind [mixChannel, keeps_setCh, keeps_countSaturation]

theorem keeps_mixAll (h : r.Keeps s) (f : Option (Vector Sample 16)) : r.Keeps (mixAll f s).2 :=
  List.foldlRecOn (motive := fun p : Vector Sample 16 × State => r.Keeps p.2) allChannels _ h
    fun p hp c _ => keeps_mixChannel hp c f p.1

end Sys2Proof.Machine
end

section
/-! PROOFS. The canonical form of the directory and the seven capacities over the blocks that work on
whole channels: silence monitors, breaks, carts, contacts, cues and arrivals. -/

namespace Sys2Proof.Machine

variable {r s : State}

/-! ### The silence monitors -/

theorem keeps_clearSilence (h : r.Keeps s) (c : Fin 4) : r.Keeps (clearSilence c s) := by
  grind [clearSilence, keeps_setMonitor, keeps_raiseAlert]

theorem keeps_startEmergency (h : r.Keeps s) (c : Fin 4) (n : Nat) :
    r.Keeps (startEmergency c n s) := by
  grind [startEmergency, keeps_claimOne, keeps_requestEmergency, keeps_primeVoice, keeps_setMonitor,
    keeps_releaseVoice]

theorem keeps_attemptFill (h : r.Keeps s) (c : Fin 4) : r.Keeps (attemptFill c s) := by
  grind [attemptFill, keeps_startEmergency]

theorem keeps_forceFill (h : r.Keeps s) (c : Fin 4) : r.Keeps (forceFill c s) := by
  grind [forceFill, keeps_startEmergency]

theorem keeps_judgeBlock (h : r.Keeps s) (c : Fin 4) : r.Keeps (judgeBlock c s) := by
  grind [judgeBlock, keeps_setMonitor, keeps_attemptFill, keeps_raiseAlert]

theorem keeps_reachSilence (h : r.Keeps s) (c : Fin 4) : r.Keeps (reachSilence c s) := by
  grind [reachSilence, keeps_setMonitor, keeps_attemptFill, keeps_raiseAlert]

theorem keeps_beginRecovery (h : r.Keeps s) (c : Fin 4) : r.Keeps (beginRecovery c s) := by
  grind [beginRecovery, keeps_fadeToZero, keeps_setMonitor, keeps_requestRecover]

theorem keeps_takeOver (h : r.Keeps s) (c : Fin 4) : r.Keeps (takeOver c s) := by
  grind [takeOver, keeps_fadeToZero, keeps_setMonitor]

theorem keeps_takeEmergencyEvent (h : r.Keeps s) (c : Fin 4) (e : VoiceEvent) :
    r.Keeps (takeEmergencyEvent c e s) := by
  grind [takeEmergencyEvent, keeps_asrunWrite, keeps_releaseVoice, keeps_setMonitor,
    keeps_requestEmergencyClear]

/-! ### Break records -/

theorem keeps_modRecord (h : r.Keeps s) (c : Fin 4) (n : Nat) (f : BreakRecord → BreakRecord) :
    r.Keeps (modRecord c n f s) :=
  keeps_setCh h fun hq => by rwa [List.length_map]

theorem keeps_modParts (h : r.Keeps s) (c : Fin 4) (n : Nat) (f : Part → Part) :
    r.Keeps (modParts c n f s) :=
  keeps_modRecord h ..

theorem keeps_releaseHolds (h : r.Keeps s) (l : List Nat) : r.Keeps (releaseHolds l s) :=
  keeps_foldl (fun _ n ht => keeps_releaseHold ht n) l h

theorem keeps_takeHolds (h : r.Keeps s) (l : List Nat) : r.Keeps (takeHolds l s) :=
  keeps_foldl (fun t n ht => by
    cases hn : holdClip n t with
    | none => exact ht
    | some u => exact keeps_holdClip ht hn) l h

theorem keeps_removeRecord (h : r.Keeps s) (c : Fin 4) (n : Nat) : r.Keeps (removeRecord c n s) := by
  unfold removeRecord
  split
  · exact h
  · exact keeps_setCh (keeps_releaseHolds h _) fun hq => (List.length_filter_le ..).trans hq

theorem keeps_primeNext (h : r.Keeps s) (c : Fin 4) (n : Nat) (v : Fin 16) :
    r.Keeps (primeNext c n v s) := by
  unfold primeNext
  repeat' split
  all_goals grind [keeps_primeVoice, keeps_modParts]

theorem keeps_triggerFill (h : r.Keeps s) (c : Fin 4) (n : Nat) : r.Keeps (triggerFill c n s) := by
  unfold triggerFill
  repeat' split
  all_goals grind [keeps_holdClip, keeps_modRecord]

theorem keeps_endEmptyPlan (h : r.Keeps s) (c : Fin 4) (x : BreakRecord) (p : Plan) :
    r.Keeps (endEmptyPlan c x p s) :=
  keeps_removeRecord (keeps_asrunWriteAll h _) ..

theorem keeps_endRefusedClaim (h : r.Keeps s) (c : Fin 4) (x : BreakRecord) (p : Plan) :
    r.Keeps (endRefusedClaim c x p s) :=
  keeps_removeRecord (keeps_raiseAlert (keeps_asrunWriteAll h _) _) ..

theorem keeps_startBreak (h : r.Keeps s) (c : Fin 4) (n : Nat) (p : Plan) (v : Fin 16 × Fin 16) :
    r.Keeps (startBreak c n p v s) :=
  keeps_primeNext (keeps_primeNext (keeps_requestPreroll (keeps_modRecord h ..) c) ..) ..

theorem keeps_acceptTrigger (h : r.Keeps s) (c : Fin 4) (n : Nat) (start : AC)
    (deadline : Option AC) (late : Bool) :
    r.Keeps (acceptTrigger c n start deadline late s).2 := by
  unfold acceptTrigger
  have taken := keeps_modRecord (keeps_triggerFill (keeps_modRecord h c n fun x =>
    { x with start := some start, deadline := deadline }) c n) c n fun x =>
    { x with state := .preroll }
  dsimp only
  repeat' split
  all_goals grind [keeps_endEmptyPlan, keeps_endRefusedClaim, keeps_claimBreak, keeps_startBreak]

theorem keeps_judgeTimeRecord (h : r.Keeps s) (c : Fin 4) (n : Nat) :
    r.Keeps (judgeTimeRecord c n s) := by
  grind [judgeTimeRecord, keeps_removeRecord, keeps_asrunWriteAll, keeps_acceptTrigger]

theorem keeps_judgeTime (h : r.Keeps s) (c : Fin 4) : r.Keeps (judgeTime c s) := by
  unfold judgeTime
  split
  · exact h
  · exact keeps_setForming (keeps_foldl (fun _ n ht => keeps_judgeTimeRecord ht c n) _ h) _

theorem keeps_expireRecord (h : r.Keeps s) (c : Fin 4) (n : Nat) :
    r.Keeps (expireRecord c n s) := by
  grind [expireRecord, keeps_removeRecord, keeps_asrunWriteAll]

theorem keeps_expireAll (h : r.Keeps s) (c : Fin 4) : r.Keeps (expireAll c s) :=
  keeps_foldl (fun _ n ht => keeps_expireRecord ht c n) _ h

theorem keeps_fireRecord (h : r.Keeps s) (c : Fin 4) (x : BreakRecord) :
    r.Keeps (fireRecord c x s).2 :=
  keeps_acceptTrigger h ..

theorem keeps_gpiFire (h : r.Keeps s) (c : Fin 4) : r.Keeps (gpiFire c s) := by
  grind [gpiFire, keeps_fireRecord, keeps_setCh]

theorem keeps_openBreak (h : r.Keeps s) (c : Fin 4) : r.Keeps (openBreak c s) := by
  grind [openBreak, keeps_requestOpen, keeps_modRecord, keeps_takeOver]

theorem keeps_openDueBreaks (h : r.Keeps s) : r.Keeps (openDueBreaks s) :=
  keeps_forChannels (fun c _ ht => keeps_openBreak ht c) h

/-! ### The join -/

theorem keeps_releaseVoices (h : r.Keeps s) (l : List (Fin 16)) : r.Keeps (releaseVoices l s) :=
  keeps_foldl (fun _ v ht => keeps_releaseVoice ht v) l h

theorem keeps_completeBreak (h : r.Keeps s) (c : Fin 4) : r.Keeps (completeBreak c s) := by
  grind [completeBreak, keeps_removeRecord, keeps_releaseVoices, keeps_asrunWriteAll]

theorem keeps_finishJoin (h : r.Keeps s) (c : Fin 4) : r.Keeps (finishJoin c s) := by
  grind [finishJoin, keeps_completeBreak, keeps_setChannelState]

theorem keeps_requestBreakClear (h : r.Keeps s) (c : Fin 4) : r.Keeps (requestBreakClear c s) := by
  grind [requestBreakClear, keeps_finishJoin, keeps_setCh]

theorem keeps_checkBreakClear (h : r.Keeps s) (c : Fin 4) : r.Keeps (checkBreakClear c s) := by
  grind [checkBreakClear, keeps_requestBreakClear]

theorem keeps_stopForJoin (h : r.Keeps s) (c : Fin 4) (n : Nat) (v : Fin 16) :
    r.Keeps (stopForJoin c n v s) := by
  grind [stopForJoin, markJoin, keeps_fadeToZero, keeps_modParts, keeps_cancelVoice]

theorem keeps_cancelStarted (h : r.Keeps s) (c : Fin 4) (n : Nat) (v : Fin 16) :
    r.Keeps (cancelStarted c n v s) := by
  grind [cancelStarted, markJoin, keeps_modParts, keeps_cancelVoice]

theorem keeps_joinAround (h : r.Keeps s) (o : Config.StartOrder) (c : Fin 4) (n : Nat)
    (v : Fin 16) : r.Keeps (joinAround o c n v s) := by
  have opened := keeps_openDueBreaks h
  cases o with
  | never => exact keeps_stopForJoin h ..
  | first => exact keeps_stopForJoin (keeps_startThrough opened v) c n v
  | outputFirst => exact keeps_stopForJoin (keeps_handleThrough opened v.val) c n v
  | between => exact keeps_cancelStarted (keeps_startThrough opened v) c n v
  | outputBetween => exact keeps_cancelStarted (keeps_handleThrough opened v.val) c n v

theorem keeps_joinVoice (h : r.Keeps s) (c : Fin 4) (n : Nat) (v : Fin 16) :
    r.Keeps (joinVoice c n v s) := by
  unfold joinVoice
  split
  · exact keeps_joinAround (keeps_drawFree h) ..
  · exact keeps_stopForJoin h ..

theorem keeps_joinBreak (h : r.Keeps s) (c : Fin 4) : r.Keeps (joinBreak c s) := by
  unfold joinBreak
  split
  · exact h
  · next x _ =>
    split
    · exact h
    · have joining := keeps_foldl (fun t v ht => keeps_joinVoice ht c x.number v) x.voices
        (keeps_requestJoin (keeps_modRecord h c x.number fun x => { x with state := .joining }) c)
      exact keeps_checkBreakClear (keeps_modParts joining ..) c

/-! ### Voice events, carts and early ends -/

theorem keeps_fadePredecessor (h : r.Keeps s) (c : Fin 4) (n k : Nat) :
    r.Keeps (fadePredecessor c n k s) := by
  unfold fadePredecessor
  repeat' split
  all_goals grind [keeps_modParts, keeps_rampVoice]

theorem keeps_takeStarted (h : r.Keeps s) (c : Fin 4) (x : BreakRecord) (v : Fin 16) (a : AC) :
    r.Keeps (takeStarted c x v a s) := by
  grind [takeStarted, keeps_modParts, keeps_fadePredecessor]

theorem keeps_takeFinished (h : r.Keeps s) (c : Fin 4) (x : BreakRecord) (v : Fin 16)
    (k : EventKind) (a : AC) : r.Keeps (takeFinished c x v k a s) := by
  grind [takeFinished, keeps_modParts, keeps_checkBreakClear, keeps_primeNext]

theorem keeps_takeBreakEvent (h : r.Keeps s) (c : Fin 4) (e : VoiceEvent) :
    r.Keeps (takeBreakEvent c e s) := by
  grind [takeBreakEvent, keeps_takeStarted, keeps_takeFinished]

theorem keeps_withdrawBreak (h : r.Keeps s) (c : Fin 4) (x : Cause) :
    r.Keeps (withdrawBreak c x s) := by
  unfold withdrawBreak
  split
  · exact h
  · exact keeps_removeRecord (keeps_requestWithdraw (keeps_releaseVoices (keeps_foldl
      (by grind [keeps_cancelVoice]) _ (keeps_asrunWriteAll h _)) _) c) ..

theorem keeps_closeBreak (h : r.Keeps s) (c : Fin 4) (m : AC) : r.Keeps (closeBreak c m s) := by
  grind [closeBreak, moveReturn, keeps_withdrawBreak, keeps_modRecord, keeps_joinBreak]

theorem keeps_abortBreak (h : r.Keeps s) (c : Fin 4) : r.Keeps (abortBreak c s).2 := by
  grind [abortBreak, moveReturn, keeps_withdrawBreak, keeps_modRecord, keeps_joinBreak]

theorem keeps_refuseCart (h : r.Keeps s) (c : Fin 4) : r.Keeps (refuseCart c s) := by
  grind [refuseCart, keeps_raiseAlert, keeps_setCh]

theorem keeps_requestCart (h : r.Keeps s) (c : Fin 4) (n l : Nat) :
    r.Keeps (requestCart c n l s).2 := by
  grind [requestCart, keeps_refuseCart, keeps_claimOne, keeps_setCh, keeps_primeVoice]

theorem keeps_takeCartEvent (h : r.Keeps s) (c : Fin 4) (e : VoiceEvent) :
    r.Keeps (takeCartEvent c e s) := by
  grind [takeCartEvent, keeps_setCh, keeps_asrunWrite, keeps_releaseVoice]

theorem keeps_deliverEvent (h : r.Keeps s) : r.Keeps (deliverEvent s) := by
  grind [deliverEvent, keeps_setEvents, keeps_takeBreakEvent, keeps_takeCartEvent,
    keeps_takeEmergencyEvent]

theorem keeps_deliverEvents (n : Nat) (h : r.Keeps s) : r.Keeps (deliverEvents n s) := by
  induction n generalizing s with
  | zero => exact h
  | succ n ih => exact ih (keeps_deliverEvent h)

theorem keeps_removeAllRecords (h : r.Keeps s) (c : Fin 4) : r.Keeps (removeAllRecords c s) :=
  keeps_foldl (fun _ n ht => keeps_removeRecord ht c n) _ h

theorem keeps_resetChannel (h : r.Keeps s) (c : Fin 4) : r.Keeps (resetChannel c s) := by
  have rested (t : State) (ht : r.Keeps t) : r.Keeps (t.setCh c (restChannel (t.ch c))) :=
    keeps_setCh ht fun _ => by simp [restChannel]
  have released := keeps_releaseChannelVoices (keeps_removeAllRecords
    (keeps_asrunWriteAll h (resetRows c s)) c) c
  unfold resetChannel
  dsimp only
  exact keeps_setChannelState (keeps_clearSilence (rested _ released) c) ..

/-! ### Contacts, cues and arrivals -/

theorem keeps_actOnEdge (h : r.Keeps s) (f : GpiFunction) : r.Keeps (actOnEdge f s) := by
  cases f with
  | none => exact h
  | micLive c => exact h
  | brk c => exact keeps_gpiFire h c
  | abort c => exact keeps_abortBreak h c
  | emergency c => exact keeps_forceFill h c
  | cart c n l => exact keeps_requestCart h c n l

theorem keeps_sampleLine (h : r.Keeps s) (g : Fin 8) (b : Bool) : r.Keeps (sampleLine g b s) := by
  grind [sampleLine, keeps_setGpiLine, keeps_raiseAlert, keeps_actOnEdge]

theorem keeps_sampleLines (h : r.Keeps s) (gpi : Byte) : r.Keeps (sampleLines gpi s) :=
  keeps_foldl (fun _ g ht => keeps_sampleLine ht g _) _ h

theorem keeps_modCues (h : r.Keeps s) (f : CueCounters → CueCounters) : r.Keeps (modCues f s) :=
  keeps_setCues h _

theorem keeps_openChannel (h : r.Keeps s) (ref : AC) (key offset window : Nat) (c : Fin 4) :
    r.Keeps (openChannel ref key offset window c s) := by
  grind [openChannel, unmatchedCue, refusedCue, keeps_modCues, keeps_raiseAlert,
    keeps_acceptTrigger]

theorem keeps_closeChannel (h : r.Keeps s) (m : AC) (key : Nat) (c : Fin 4) :
    r.Keeps (closeChannel m key c s) := by
  grind [closeChannel, unmatchedCue, keeps_modCues, keeps_raiseAlert, keeps_closeBreak]

theorem keeps_visitAll {f : Visit} (hf : ∀ (c : Fin 4) (t : State), r.Keeps t → r.Keeps (f c t))
    (l : List (Fin 4)) (h : r.Keeps s) : r.Keeps (visitAll f l s) :=
  keeps_foldl (fun t c => hf c t) l h

theorem keeps_openVisits {p : List Byte} {ref : AC} {l : List (Fin 4)} {f : Visit}
    (hf : openVisits p ref = some (l, f)) (c : Fin 4) (t : State) (h : r.Keeps t) :
    r.Keeps (f c t) := by
  unfold openVisits at hf
  dsimp only at hf
  split at hf
  · cases hf
  · cases hf
    exact keeps_openChannel h ..

theorem keeps_closeVisits {p : List Byte} {ref : AC} {l : List (Fin 4)} {f : Visit}
    (hf : closeVisits p ref = some (l, f)) (c : Fin 4) (t : State) (h : r.Keeps t) :
    r.Keeps (f c t) := by
  unfold closeVisits at hf
  dsimp only at hf
  split at hf
  · cases hf
  · cases hf
    exact keeps_closeChannel h ..

theorem keeps_decodeOpen (h : r.Keeps s) (p : List Byte) (ref : AC) :
    r.Keeps (decodeOpen p ref s) := by
  unfold decodeOpen visitOrMalformed
  split
  · exact keeps_modCues h _
  · next hf => exact keeps_visitAll (keeps_openVisits hf) _ h

theorem keeps_decodeClose (h : r.Keeps s) (p : List Byte) (ref : AC) :
    r.Keeps (decodeClose p ref s) := by
  unfold decodeClose visitOrMalformed
  split
  · exact keeps_modCues h _
  · next hf => exact keeps_visitAll (keeps_closeVisits hf) _ h

theorem keeps_decodeRecordStart (h : r.Keeps s) (p : List Byte) (ref : AC) :
    r.Keeps (decodeRecordStart p ref s) := by
  grind [decodeRecordStart, malformedCue, keeps_modCues, keeps_storeRecordStart]

theorem keeps_decodeRecordStop (h : r.Keeps s) (p : List Byte) (ref : AC) :
    r.Keeps (decodeRecordStop p ref s) := by
  grind [decodeRecordStop, malformedCue, keeps_modCues, keeps_storeRecordStop]

theorem keeps_decodeTimeMark (h : r.Keeps s) (p : List Byte) (ref : AC) :
    r.Keeps (decodeTimeMark p ref s) := by
  grind [decodeTimeMark, malformedCue, keeps_modCues, keeps_setClock]

theorem keeps_decodeUnknown (h : r.Keeps s) (p : List Byte) : r.Keeps (decodeUnknown p s) := by
  grind [decodeUnknown, malformedCue, keeps_modCues]

theorem keeps_countCue (h : r.Keeps s) : r.Keeps (countCue s) := keeps_modCues h _

theorem keeps_popRouted (h : r.Keeps s) : r.Keeps (popRouted s) := keeps_setCmd h id id

theorem keeps_takeCue (h : r.Keeps s) (x : Routed) : r.Keeps (takeCue x s) := by
  grind [takeCue, keeps_countCue, keeps_decodeOpen, keeps_decodeClose, keeps_decodeRecordStart,
    keeps_decodeRecordStop, keeps_decodeTimeMark, keeps_decodeUnknown]

theorem keeps_closeAssembly (h : r.Keeps s) : r.Keeps (closeAssembly s) := keeps_setCmd h id id

theorem keeps_offerCommand (h : r.Keeps s) (src : Byte) (x : CmdHeader) (b : List Byte) :
    r.Keeps (offerCommand src x b s) := by
  unfold offerCommand
  split
  · next room => exact keeps_setCmd h id fun _ => by simpa using room
  · exact keeps_immediateReport h ..

theorem keeps_discardAssembly (h : r.Keeps s) (a : Assembly) (f : ErrFlag) :
    r.Keeps (discardAssembly a f s) :=
  keeps_immediateReport (keeps_closeAssembly h) ..

theorem keeps_takeFirst (h : r.Keeps s) (x : Routed) : r.Keeps (takeFirst x s) := by
  grind [takeFirst, keeps_immediateReport, keeps_offerCommand, keeps_setCmd]

theorem keeps_takeCommand (h : r.Keeps s) (x : Routed) : r.Keeps (takeCommand x s) := by
  grind [takeCommand, keeps_immediateReport, keeps_takeFirst, keeps_discardAssembly]

theorem keeps_takeMore (h : r.Keeps s) (x : Routed) : r.Keeps (takeMore x s) := by
  grind [takeMore, keeps_immediateReport, keeps_discardAssembly, keeps_offerCommand,
    keeps_closeAssembly, keeps_setCmd]

theorem keeps_timeoutAssembly (h : r.Keeps s) : r.Keeps (timeoutAssembly s) := by
  grind [timeoutAssembly, keeps_discardAssembly]

theorem keeps_takeRouted (h : r.Keeps s) (x : Routed) : r.Keeps (takeRouted x s) := by
  grind [takeRouted, keeps_takeCue, keeps_takeCommand, keeps_takeMore]

theorem keeps_takeAllRouted (h : r.Keeps s) : r.Keeps (takeAllRouted s) :=
  keeps_foldl (fun _ x ht => keeps_takeRouted ht x) _ (keeps_setCmd h id id)

end Sys2Proof.Machine
end

section
/-! PROOFS. The canonical form of the directory and the seven capacities over the lane, the frames and
the commands, and so over every step; clip memory's form beside it. -/

namespace Sys2Proof.Machine

variable {r s : State}

/-! ### The pass-through FIFO's depth (R15) -/

theorem fifoDepth_append (l m : List FifoItem) :
    fifoDepth (l ++ m) = fifoDepth l + fifoDepth m := List.countP_append ..

theorem fifoDepth_byte (x : Byte) (l : List FifoItem) :
    fifoDepth (.byte x :: l) = fifoDepth l + 1 := List.countP_cons_of_pos rfl

theorem fifoDepth_mark (n : Nat) (l : List FifoItem) : fifoDepth (.mark n :: l) = fifoDepth l :=
  List.countP_cons_of_neg Bool.false_ne_true

theorem fifoDepth_nil : fifoDepth [] = 0 := rfl

/-! ### The aux lane (R11 to R16) -/

theorem keeps_fifoAppend (h : r.Keeps s) {l : List FifoItem}
    (room : fifoDepth s.tx.fifo ≤ 512 → fifoDepth s.tx.fifo + fifoDepth l ≤ 512) :
    r.Keeps (fifoAppend l s) :=
  keeps_setTx h (fun hs => by rw [fifoDepth_append]; exact room hs) le_rfl

theorem keeps_countOverflow (h : r.Keeps s) (n : Nat) : r.Keeps (countOverflow n s) :=
  keeps_setTx h id le_rfl

theorem keeps_setAssembly (h : r.Keeps s) (a : LaneState) : r.Keeps (setAssembly a s) :=
  keeps_setLane h _

theorem keeps_pushBody (h : r.Keeps s) (b : LaneBody) (x : Byte) : r.Keeps (pushBody b x s).2 := by
  unfold pushBody
  split
  · split
    · next room => exact keeps_fifoAppend h fun _ => room
    · exact keeps_fifoAppend (keeps_countOverflow h 1) id
  · exact h

theorem keeps_beginBody (h : r.Keeps s) (kind dest src len : Byte) :
    r.Keeps (beginBody kind dest src len s) := by
  unfold beginBody
  dsimp only
  split
  · exact keeps_setAssembly h _
  · split
    · next room => exact keeps_setAssembly (keeps_fifoAppend h (by exact fun _ => room)) _
    · exact keeps_setAssembly (keeps_countOverflow h 5) _

theorem keeps_routePacket (h : r.Keeps s) (b : LaneBody) (ref : AC) :
    r.Keeps (routePacket b ref s) := by
  grind [routePacket, routeTo, keeps_setCmd, keeps_setLane, keeps_immediateReport]

theorem keeps_completePacket (h : r.Keeps s) (b : LaneBody) (a x : Byte) (ref : AC) :
    r.Keeps (completePacket b a x ref s) := by
  grind [completePacket, keeps_routePacket, keeps_setLane]

theorem keeps_bodyByte (h : r.Keeps s) (b : LaneBody) (x : Byte) (ref : AC) :
    r.Keeps (bodyByte b x ref s) := by
  grind [bodyByte, keeps_pushBody, keeps_setAssembly, keeps_completePacket]

theorem keeps_laneByte (h : r.Keeps s) (ref : AC) (x : Byte) : r.Keeps (laneByte ref s x) := by
  unfold laneByte
  repeat' split
  all_goals grind [keeps_setAssembly, keeps_setLane, keeps_beginBody, keeps_bodyByte]

theorem keeps_laneFrame (h : r.Keeps s) (ref : AC) (aux : Vector Byte 4) :
    r.Keeps (laneFrame ref aux s) :=
  keeps_foldl (fun _ x ht => keeps_laneByte ht ref x) _ h

theorem keeps_breakPacket (h : r.Keeps s) : r.Keeps (breakPacket s) := by
  unfold breakPacket
  split
  · exact h
  · exact keeps_setLane h _
  · dsimp only
    split
    · exact keeps_fifoAppend (keeps_setLane h _) id
    · exact keeps_setLane h _

theorem keeps_setMerger (h : r.Keeps s) (m : Merger) : r.Keeps (setMerger m s) :=
  keeps_setTx h id le_rfl

theorem keeps_startLocal (h : r.Keeps s) (p : Packet) : r.Keeps (startLocal p s).2 := by
  grind [startLocal, keeps_setMerger]

theorem keeps_passByte (h : r.Keeps s) (sent len a b : Nat) : r.Keeps (passByte sent len a b s).2 := by
  unfold passByte
  split
  · next heq =>
    refine keeps_setTx h (fun hs => ?_) le_rfl
    rw [heq, fifoDepth_byte] at hs
    exact Nat.le_of_succ_le hs
  · next heq =>
    dsimp only
    split
    all_goals exact keeps_setTx h (fun hs => by
      rw [heq, fifoDepth_mark] at hs
      simpa only [fifoDepth_mark] using hs) le_rfl
  · exact h

theorem keeps_startPass (h : r.Keeps s) : r.Keeps (startPass s).2 := by
  unfold startPass
  split
  · next heq =>
    refine keeps_setTx h (fun hs => ?_) le_rfl
    rw [heq, fifoDepth_byte] at hs
    exact Nat.le_of_succ_le hs
  · exact h

theorem keeps_betweenByte (h : r.Keeps s) : r.Keeps (betweenByte s).2 := by
  unfold betweenByte
  repeat' split
  · exact keeps_startLocal (keeps_setAlert h _) _
  · next heq =>
    refine keeps_startLocal (keeps_setCmd h (fun hs => ?_) (by exact id)) _
    rw [heq, List.length_cons] at hs
    exact Nat.le_of_succ_le hs
  · exact keeps_startPass h
  · exact keeps_startPass h

theorem keeps_mergerByte (h : r.Keeps s) : r.Keeps (mergerByte s).2 := by
  grind [mergerByte, keeps_setMerger, keeps_betweenByte, keeps_passByte]

theorem keeps_mergerFrame (h : r.Keeps s) : r.Keeps (mergerFrame s).2 :=
  keeps_mergerByte (keeps_mergerByte (keeps_mergerByte (keeps_mergerByte h)))

/-! ### The frames -/

theorem keeps_searchByte (h : r.Keeps s) (b : Byte) : r.Keeps (searchByte b s) := by
  grind [searchByte, keeps_setRx]

theorem keeps_verifyBytes (h : r.Keeps s) (b0 b1 : Byte) : r.Keeps (verifyBytes b0 b1 s) := by
  grind [verifyBytes, enterLocked, keeps_setRx, keeps_raiseAlert]

theorem keeps_settle (h : r.Keeps s) : r.Keeps (settle s) :=
  keeps_forChannels (fun c _ ht => keeps_beginRecovery (keeps_reachSilence ht c) c)
    (keeps_settleIngest h)

theorem keeps_joinIfDue (h : r.Keeps s) (c : Fin 4) : r.Keeps (joinIfDue c s) := by
  grind [joinIfDue, keeps_joinBreak]

theorem keeps_openFrame (h : r.Keeps s) : r.Keeps (openFrame s) := by
  have joined := keeps_forChannels (fun c _ ht => keeps_joinIfDue ht c) (keeps_settle h)
  unfold openFrame
  split
  · exact h
  · exact keeps_setForming (keeps_queueReplies (keeps_takeAllRouted
      (keeps_deliverEvents _ joined))) _

theorem keeps_openBreaks (h : r.Keeps s) : r.Keeps (openBreaks s) :=
  keeps_openDueBreaks (keeps_openFrame h)

theorem keeps_reachMoments (h : r.Keeps s) : r.Keeps (reachMoments s) :=
  keeps_forChannels (fun c _ ht => keeps_judgeTime ht c)
    (keeps_forChannels (fun c _ ht => keeps_expireAll ht c) (keeps_timeoutAssembly h))

theorem keeps_boundaryMoves (h : r.Keeps s) : r.Keeps (boundaryMoves s) := by
  unfold boundaryMoves
  split
  · exact keeps_forChannels (fun c _ ht => keeps_moveDuck ht c) (keeps_forChannels (fun c _ ht =>
      keeps_finishReturn (keeps_finishJoin (keeps_moveGain ht c) c) c) h)
  · exact h

theorem keeps_sampleOnce (h : r.Keeps s) (gpi : Byte) : r.Keeps (sampleOnce gpi s) := by
  grind [sampleOnce, keeps_sampleLines, keeps_setForming]

theorem keeps_afterFrame (h : r.Keeps s) (f : TrunkFrame) (gpi : Byte) :
    r.Keeps (afterFrame f gpi s) := by
  have formed : r.Keeps (((s.setTx { s.tx with sent := some f }).setClock
      { s.clock with ac := s.nextAC, noneFormed := false }).setForming .start) :=
    keeps_setForming (keeps_setClock (keeps_setTx h (by exact id) (by exact le_rfl)) _) _
  have judged := keeps_forChannels (fun c _ ht => keeps_judgeBlock ht c) formed
  unfold afterFrame
  dsimp only
  repeat' split
  · exact keeps_sampleLines judged gpi
  · exact keeps_sampleLines formed gpi
  · exact judged
  · exact formed

theorem keeps_formFrame (h : r.Keeps s) (carried : Option (Vector Sample 16)) (gpi : Byte) :
    r.Keeps (formFrame carried gpi s) := by
  have handled := keeps_handleThrough (keeps_boundaryMoves
    (keeps_reachMoments (keeps_openBreaks h))) 15
  have mixed := keeps_mergerFrame (keeps_mixAll handled carried)
  unfold formFrame
  exact keeps_afterFrame mixed ..

theorem keeps_followFrame (h : r.Keeps s) (gpi : Byte) : r.Keeps (followFrame gpi s) := by
  unfold followFrame
  split
  · exact h
  · next heq => exact keeps_formFrame (keeps_setTx h (by exact id) (by simp [heq])) ..

theorem keeps_holdoverFrame (h : r.Keeps s) (gpi : Byte) : r.Keeps (holdoverFrame gpi s) := by
  have loaded := keeps_setTx (x := { s.tx with
    awaitFirst := false, periodCounter := s.tx.holdover }) h id le_rfl
  exact keeps_formFrame loaded none gpi

theorem keeps_enterHoldover (h : r.Keeps s) : r.Keeps (enterHoldover s) :=
  keeps_setTx h id (Nat.zero_le _)

/-- A frame joined to the transit, before the ingest engine sees it (R6, R7). -/
def State.joinTransit (f : TransitFrame) (s : State) : State :=
  s.setTx { s.tx with transit := s.tx.transit ++ [f], lastCarrying := some f.carrying }

theorem deliverFrame_eq (f : TransitFrame) (s : State) :
    deliverFrame f s = captureFrame f (s.joinTransit f) := rfl

theorem joinTransit_withinCapacity {f : TransitFrame} (h : s.withinCapacity)
    (room : s.tx.transit.length < 3) : (s.joinTransit f).withinCapacity := by
  obtain ⟨asrun, replies, commands, fifo, -, arms, breaks⟩ := h
  refine ⟨asrun, replies, commands, fifo, ?_, arms, breaks⟩
  rw [State.joinTransit, State.setTx_tx, List.length_append]
  exact room

theorem keeps_reportJudgment (h : r.Keeps s) (j : FrameJudgment) :
    r.Keeps (reportJudgment j s) := by
  cases j with
  | good => exact h
  | checkFailed => exact h
  | firstMiss => exact keeps_raiseAlert h _
  | lockLost => exact keeps_discardIngest (keeps_settleIngest
      (keeps_enterHoldover (keeps_raiseAlert h _))) _

/-- What an ingress frame in LOCKED does beside the frame it joins to the transit. -/
theorem keeps_lockedFrame (f : TrunkFrame) (lag : Nat) (s : State) :
    ∃ x, (s.joinTransit x).Keeps (lockedFrame f lag s) := by
  refine ⟨⟨s.carryingAC lag, if judgeFrame s.rx f == .good then f.slots else s.rx.held,
    judgeFrame s.rx f == .good⟩, ?_⟩
  unfold lockedFrame
  apply keeps_reportJudgment
  generalize (judgeFrame s.rx f == .good) = good
  have delivered (x : TransitFrame) (y : Receiver) :
      (s.joinTransit x).Keeps (deliverFrame x (s.setRx y)) :=
    keeps_captureFrame (keeps_setRx (.refl (s.joinTransit x)) y) x
  cases good with
  | true => exact keeps_laneFrame (delivered ..) ..
  | false => exact keeps_breakPacket (delivered ..)

/-! ### The commands -/

theorem keeps_unitSet (h : r.Keeps s) (b : List Byte) : r.Keeps (unitSet b s).2 := by
  have applied (e : UnitEdit) : r.Keeps (e.apply s) := by
    unfold UnitEdit.apply
    apply keeps_setReserve
    have settings := keeps_setTx (x := { s.tx with
      holdover := (e.holdover.map (clampNat 508 516)).getD s.tx.holdover })
      (keeps_setLane h { s.lane with
        unitAddr := (e.unitAddr.map (BitVec.ofNat 8)).getD s.lane.unitAddr
        groupAddr := (e.groupAddr.map (BitVec.ofNat 8)).getD s.lane.groupAddr }) id le_rfl
    cases e.lp with
    | none => exact settings
    | some lp => exact keeps_setStore settings (by exact rfl) (by exact id)
  grind [unitSet, refuse]

theorem keeps_zeroChannelCounts (h : r.Keeps s) (c : Fin 4) : r.Keeps (zeroChannelCounts c s) :=
  keeps_setCh h id

theorem keeps_clearLinkCounters (h : r.Keeps s) : r.Keeps (clearLinkCounters s) :=
  keeps_setTx (keeps_setLane (keeps_setRx h _) _) id le_rfl

theorem keeps_clearReportDrops (h : r.Keeps s) : r.Keeps (clearReportDrops s) :=
  keeps_setCmd h id id

theorem keeps_resetUnit (h : r.Keeps s) : r.Keeps (resetUnit s) := by
  have emptied : r.Keeps (resetCommandUnit s) :=
    keeps_setAlert (keeps_setCmd h (by exact id) (by exact fun _ => Nat.zero_le 8)) _
  have rested := keeps_forChannels (fun c _ ht => keeps_resetChannel ht c) emptied
  have zeroed := keeps_forChannels (fun c _ ht => keeps_zeroChannelCounts ht c) rested
  exact keeps_clearReportDrops (keeps_setCues (keeps_clearLinkCounters
    (keeps_storeDeviceReset zeroed)) _)

theorem keeps_visits {x : Routed} {l : List (Fin 4)} {f : Visit} (hf : x.visits = some (l, f))
    (c : Fin 4) (t : State) (h : r.Keeps t) : r.Keeps (f c t) := by
  unfold Routed.visits at hf
  split at hf
  · exact keeps_openVisits hf c t h
  · exact keeps_closeVisits hf c t h
  · cases hf

theorem keeps_resetAround (h : r.Keeps s) (n : Nat) : r.Keeps (resetAround n s) := by
  unfold resetAround
  split
  · exact keeps_resetUnit h
  · next l f heq =>
    have visit : ∀ (c : Fin 4) (t : State), r.Keeps t → r.Keeps (f c t) := by
      obtain ⟨x, -, hx⟩ := Option.bind_eq_some_iff.1 (Option.filter_eq_some_iff.1 heq).1
      exact keeps_visits hx
    exact keeps_visitAll visit _ (keeps_resetUnit (keeps_visitAll visit _
      (keeps_countCue (keeps_popRouted h))))

theorem keeps_clearSections (n : Nat) (h : r.Keeps s) : r.Keeps (clearSections n s) := by
  induction n with
  | zero => exact h
  | succ n ih =>
    unfold clearSections clearSection
    split
    · exact keeps_clearLinkCounters ih
    · exact keeps_clearReportDrops (keeps_setCues ih _)
    · exact keeps_setStore ih rfl id
    all_goals first | exact keeps_zeroChannelCounts ih _ | exact ih

theorem keeps_statusRead (h : r.Keeps s) (limit : Nat) (b : List Byte) :
    r.Keeps (statusRead limit b s).2 := by
  grind [statusRead, refuse, keeps_clearSections]

theorem keeps_alertSet (h : r.Keeps s) (b : List Byte) : r.Keeps (alertSet b s).2 := by
  grind [alertSet, refuse, keeps_setAlert]

theorem keeps_applyChannelSet (h : r.Keeps s) (c : Fin 4) (e : ConfigEdit) :
    r.Keeps (applyChannelSet c e s) := by
  grind [applyChannelSet, enableChannel, disableChannel, keeps_setCh, keeps_setChannelState,
    keeps_clearSilence, keeps_setMonitor]

theorem keeps_channelSet (h : r.Keeps s) (b : List Byte) : r.Keeps (channelSet b s).2 := by
  grind [channelSet, configReply, refuse, keeps_applyChannelSet]

theorem keeps_channelReset (h : r.Keeps s) (b : List Byte) : r.Keeps (channelReset b s).2 := by
  grind [channelReset, accept, refuse, keeps_resetChannel]

theorem keeps_setChans_map (h : r.Keeps s) {f : Channel → Channel}
    (hf : ∀ x, (f x).queue = x.queue) : r.Keeps (s.setChans (s.chans.map f)) :=
  { h with
    breaks := fun hr c => by
      have mapped : (s.setChans (s.chans.map f)).ch c = f (s.ch c) := Vector.getElem_map ..
      rw [mapped, hf]
      exact h.breaks hr c }

theorem keeps_shiftClock (h : r.Keeps s) (d : AC) : r.Keeps (shiftClock d s) := by
  have stored := keeps_setStore (x := storeShift d s.store) (keeps_setClock (keeps_voiceShift h d)
    (s.clock.shift d)) rfl id
  have channels := keeps_setChans_map (f := Channel.shift d) stored fun _ => rfl
  exact keeps_setCmd (keeps_setTx channels (by exact id) (by exact (List.length_map _).le))
    (by exact id) (by exact id)

theorem keeps_clockSet (h : r.Keeps s) (b : List Byte) : r.Keeps (clockSet b s).2 := by
  grind [clockSet, refuse, keeps_shiftClock]

theorem keeps_cartFire (h : r.Keeps s) (b : List Byte) : r.Keeps (cartFire b s).2 := by
  unfold cartFire
  repeat' split
  all_goals grind [refuse, keeps_requestCart]

theorem keeps_dirWrite (h : r.Keeps s) (b : List Byte) : r.Keeps (dirWrite b s).2 := by
  grind [dirWrite, refuse, keeps_setEntry]

theorem keeps_dirErase (h : r.Keeps s) (b : List Byte) : r.Keeps (dirErase b s).2 := by
  grind [dirErase, refuse, accept, keeps_emptyEntry, keeps_retireOldest]

theorem armCheck_cue_room {f : ArmFields} (h : armCheck f s = none) (hnow : f.now = false) :
    s.store.armList.length < 8 := by
  grind [armCheck]

theorem keeps_applyArm (h : r.Keeps s) (f : ArmFields)
    (room : f.now = false → s.store.armList.length < 8) : r.Keeps (applyArm f s) := by
  have emptied (l : List Nat) :
      r.Keeps (l.foldl (fun t n => emptyEntry n t) s)
        ∧ (l.foldl (fun t n => emptyEntry n t) s).store.armList = s.store.armList :=
    ⟨keeps_foldl (fun _ n ht => keeps_emptyEntry ht n) l h,
      foldl_keeps (fun t => t.store.armList) (fun t n => emptyEntry n t) (fun _ _ => rfl) l s⟩
  obtain ⟨kept, arms⟩ := emptied (if f.region = .library then
    (s.clipsInSpan (f.span s.store.lp)).map fun p => p.1 else [])
  unfold applyArm
  dsimp only
  split
  · exact keeps_startIngest (keeps_setEntry kept ..) ..
  · next hnow =>
    refine keeps_setStore (keeps_setEntry kept ..) rfl fun _ => ?_
    have := room (Bool.eq_false_iff.2 hnow)
    rw [List.length_append]
    show (List.foldl _ s _).store.armList.length + 1 ≤ 8
    rw [arms]
    omega

theorem keeps_ingestArm (h : r.Keeps s) (b : List Byte) : r.Keeps (ingestArm b s).2 := by
  grind [ingestArm, refuse, accept, keeps_applyArm, armCheck_cue_room]

theorem keeps_disarm (h : r.Keeps s) (n : Nat) : r.Keeps (disarm n s) :=
  keeps_emptyEntry (keeps_setStore h (by exact rfl)
    (by exact fun hs => (List.length_filter_le ..).trans hs)) n

theorem keeps_ingestStop (h : r.Keeps s) (b : List Byte) : r.Keeps (ingestStop b s).2 := by
  grind [ingestStop, refuse, accept, keeps_endIngest, keeps_disarm]

theorem keeps_ringRetire (h : r.Keeps s) (b : List Byte) : r.Keeps (ringRetire b s).2 :=
  keeps_retire _ h

theorem takeHolds_ch (l : List Nat) (s : State) (c : Fin 4) : (takeHolds l s).ch c = s.ch c :=
  foldl_keeps (fun t : State => t.ch c) _ (fun t n => by
    unfold holdClip
    dsimp only
    split <;> rfl) l s

theorem keeps_loadFirst (h : r.Keeps s) (b : List Byte) : r.Keeps (loadFirst b s).2 := by
  unfold loadFirst
  split
  · exact h
  · next c x _ _ =>
    split
    · exact h
    · next hcheck =>
      have room : (s.ch c).queue.length < 8 := by grind [firstCheck]
      exact keeps_setCh (keeps_takeHolds h x.clips) fun _ => by
        rw [takeHolds_ch, List.length_append]
        exact room

theorem keeps_breakLoadFirst (h : r.Keeps s) (c : Command) : r.Keeps (breakLoadFirst c s).2 := by
  grind [breakLoadFirst, refuse, keeps_loadFirst]

theorem keeps_loadContinuation (h : r.Keeps s) (b : List Byte) :
    r.Keeps (loadContinuation b s).2 := by
  unfold loadContinuation
  repeat' split
  all_goals grind [refuse, loadReply, appendItems, keeps_modRecord, keeps_takeHolds]

theorem keeps_abortReply (h : r.Keeps s) (a : AbortAnswer) : r.Keeps (abortReply a s).2 := by
  cases a with
  | noFlight => exact h
  | withdrawn n => exact h
  | joining n x => exact h

theorem keeps_breakAbort (h : r.Keeps s) (b : List Byte) : r.Keeps (breakAbort b s).2 := by
  grind [breakAbort, refuse, keeps_abortReply, keeps_abortBreak]

theorem keeps_breakCancel (h : r.Keeps s) (b : List Byte) : r.Keeps (breakCancel b s).2 := by
  unfold breakCancel
  repeat' split
  all_goals grind [refuse, accept, keeps_abortReply, keeps_abortBreak, keeps_removeRecord]

theorem keeps_breakFire (h : r.Keeps s) (b : List Byte) : r.Keeps (breakFire b s).2 := by
  unfold breakFire
  repeat' split
  all_goals grind [refuse, keeps_fireRecord]

theorem keeps_voiceTrim (h : r.Keeps s) (b : List Byte) : r.Keeps (voiceTrim b s).2 := by
  unfold voiceTrim
  split
  · exact h
  · split
    · exact h
    · exact List.foldlRecOn (motive := fun p : Nat × State => r.Keeps p.2) _ _ h
        fun _ hp v _ => keeps_stageVoice hp v _ _

theorem keeps_gpiSet (h : r.Keeps s) (b : List Byte) : r.Keeps (gpiSet b s).2 := by
  grind [gpiSet, refuse, keeps_setGpiLine]

theorem keeps_gpoSet (h : r.Keeps s) (b : List Byte) : r.Keeps (gpoSet b s).2 := by
  grind [gpoSet, refuse, keeps_setGpo]

theorem keeps_clearLost (h : r.Keeps s) : r.Keeps (clearLost s) := keeps_setAsrun h id

theorem keeps_asrunFetch (h : r.Keeps s) (x : CmdHeader) (b : List Byte) :
    r.Keeps (asrunFetch x b s).2 := by
  grind [asrunFetch, keeps_clearLost, keeps_asrunRemove]

theorem keeps_asrunDiscard (h : r.Keeps s) (b : List Byte) : r.Keeps (asrunDiscard b s).2 :=
  keeps_clearLost (keeps_asrunRemove h _)

end Sys2Proof.Machine
end

section
/-! PROOFS. What every step keeps (chapter 95 of the manual): the canonical forms, the capacities, clip
memory but for ingress frames, and the count of the air clock. -/

namespace Sys2Proof.Machine

/-! ### Rows of the table as operations on the state -/

section Rows
variable {P : State → Prop} {s t : State}

theorem next_preserves {u : State} (h : P u) (ht : (Host.Outcome.next u : Result) = .next t) :
    P t := by
  cases ht
  exact h

/-- A command row keeps what the steps due, the taking of the command, the command and its answer
keep. -/
theorem runRow_preserves {row : Command → Bool} {always : Bool} {f : Action}
    (settled : ∀ u, P u → P (settle u)) (popped : ∀ u, P u → P (popCommand u))
    (answered : ∀ c x u, P u → P (answer c always x u)) (worked : ∀ c u, P u → P (f c u).2)
    (h : P s) (ht : runRow row always f s = .next t) : P t := by
  refine next_preserves ?_ ht
  split
  · unfold executeOldest
    split
    · exact settled s h
    · exact answered _ _ _ (worked _ _ (popped _ (settled s h)))
  · exact h

theorem sized_preserves {n : Nat} {f : List Byte → State → Reply × State}
    (worked : ∀ b u, P u → P (f b u).2) (c : Command) (u : State) (h : P u) :
    P (sized n f c u).2 := by
  unfold sized
  split
  · exact worked c.body u h
  · exact h

theorem takeRow_preserves {test : Routed → Bool} {f : Routed → State → State}
    (settled : ∀ u, P u → P (settle u)) (popped : ∀ u, P u → P (popRouted u))
    (worked : ∀ x u, P u → P (f x u)) (h : P s) (ht : takeRow test f s = .next t) : P t := by
  unfold takeRow at ht
  split at ht
  · exact next_preserves h ht
  · exact next_preserves (worked _ _ (popped _ (settled s h))) ht

theorem handleVoiceRow_preserves {v : Nat} {test : State → Fin 16 → Bool}
    (handled : ∀ n u, P u → P (handleThrough n u)) (opened : P (openBreaks s)) (h : P s)
    (ht : handleVoiceRow v test s = .next t) : P t := by
  unfold handleVoiceRow at ht
  split at ht
  · cases ht
  · refine next_preserves ?_ ht
    split
    · exact handled _ _ opened
    · exact h

end Rows

/-! ### The canonical form of the directory and the capacities -/

section Keeps
variable {r s t : State}

theorem keeps_runRow {row : Command → Bool} {always : Bool} {f : Action}
    (worked : ∀ (c : Command) (u : State), r.Keeps u → r.Keeps (f c u).2) (h : r.Keeps s)
    (ht : runRow row always f s = .next t) : r.Keeps t :=
  runRow_preserves (fun _ => keeps_settle)
    (fun u hu => keeps_setCmd hu id fun hq => by simp only [List.length_tail]; omega)
    (fun c x _ hu => keeps_answer hu c always x) worked h ht

theorem keeps_sizedRow {row : Command → Bool} {always : Bool} {n : Nat}
    {f : List Byte → State → Reply × State}
    (worked : ∀ {u : State}, r.Keeps u → ∀ b, r.Keeps (f b u).2) (h : r.Keeps s)
    (ht : runRow row always (sized n f) s = .next t) : r.Keeps t :=
  keeps_runRow (sized_preserves fun b _ hu => worked hu b) h ht

theorem keeps_takeRow {test : Routed → Bool} {f : Routed → State → State}
    (worked : ∀ (x : Routed) (u : State), r.Keeps u → r.Keeps (f x u)) (h : r.Keeps s)
    (ht : takeRow test f s = .next t) : r.Keeps t :=
  takeRow_preserves (fun _ => keeps_settle) (fun _ => keeps_popRouted) worked h ht

theorem keeps_voiceRow {v : Nat} {test : State → Fin 16 → Bool} (h : r.Keeps s)
    (ht : handleVoiceRow v test s = .next t) : r.Keeps t :=
  handleVoiceRow_preserves (fun n _ hu => keeps_handleThrough hu n) (keeps_openBreaks h) h ht

theorem keeps_powerOnState (straps : Byte) (s : State) : r.Keeps (powerOnState straps s) where
  directory _ := ⟨List.Pairwise.nil, fun _ h => absurd h List.not_mem_nil⟩
  asrun _ := Nat.zero_le _
  replies _ := Nat.zero_le _
  commands _ := Nat.zero_le _
  fifo _ := Nat.zero_le _
  transit := Nat.zero_le _
  armList _ := Nat.zero_le _
  breaks _ c := by
    have empty : ((powerOnState straps s).ch c).queue = [] := by fin_cases c <;> rfl
    rw [empty]
    exact Nat.zero_le _

/-- Every row but INGRESS_FRAME keeps the canonical form of the directory and the seven capacities. -/
theorem keeps_exec {i : Instr} (hi : ∀ f lag, i ≠ .ingressFrame f lag) (h : r.Keeps s)
    (ht : exec i s = .next t) : r.Keeps t := by
  have opened := keeps_openFrame h
  cases i with
  | powerOnReset straps gpi =>
    exact next_preserves (keeps_holdoverFrame (keeps_powerOnState straps s) gpi) ht
  | syncFound b =>
    exact next_preserves (by split; exacts [keeps_searchByte h b, h]) ht
  | verifyFrame b0 b1 =>
    exact next_preserves (by split; exacts [keeps_verifyBytes (keeps_settle h) b0 b1, h]) ht
  | ingressFrame f lag => exact absurd rfl (hi f lag)
  | ingestLimit => exact next_preserves (by split; exacts [keeps_settleIngest h, h]) ht
  | ingestRegionEnd => exact next_preserves (by split; exacts [keeps_settleIngest h, h]) ht
  | ingestCueStop => exact next_preserves (by split; exacts [keeps_settleIngest h, h]) ht
  | egressFrameFollow gpi => exact next_preserves (keeps_followFrame h gpi) ht
  | holdoverPeriodExpiry gpi =>
    exact next_preserves (by split; exacts [keeps_holdoverFrame h gpi, h]) ht
  | firstHoldoverFrame gpi =>
    exact next_preserves (by split; exacts [keeps_holdoverFrame h gpi, h]) ht
  | silenceLimitReached c =>
    simp only [exec, execSilenceLimitReached] at ht
    split at ht
    · cases ht
    · exact next_preserves (keeps_reachSilence h _) ht
  | recoveryLimitReached c =>
    simp only [exec, execRecoveryLimitReached] at ht
    split at ht
    · cases ht
    · exact next_preserves (keeps_beginRecovery h _) ht
  | voiceStart v => exact keeps_voiceRow h ht
  | voiceEnd v => exact keeps_voiceRow h ht
  | voiceFaded v => exact keeps_voiceRow h ht
  | voiceEventDelivery =>
    exact next_preserves (by split; exacts [keeps_deliverEvent (keeps_settle h), h]) ht
  | breakOpen c =>
    simp only [exec, execBreakOpen] at ht
    split at ht
    · cases ht
    · exact next_preserves (by split; exacts [keeps_openBreak opened _, h]) ht
  | join c =>
    simp only [exec, execJoin] at ht
    split at ht
    · cases ht
    · exact next_preserves (by split; exacts [keeps_joinBreak (keeps_settle h) _, h]) ht
  | breakExpiry c n =>
    simp only [exec, execBreakExpiry] at ht
    split at ht
    · cases ht
    · split at ht
      · exact next_preserves (by split; exacts [keeps_expireRecord opened _ n, h]) ht
      · cases ht
  | timeTrigger c =>
    simp only [exec, execTimeTrigger] at ht
    split at ht
    · cases ht
    · exact next_preserves (by split; exacts [keeps_judgeTime opened _, h]) ht
  | assemblyTimeout =>
    exact next_preserves (by split; exacts [keeps_timeoutAssembly opened, h]) ht
  | gpiLevelChange gpi => exact next_preserves (by split; exacts [keeps_sampleOnce opened gpi, h]) ht
  | openCue => exact keeps_takeRow (fun _ _ hu => keeps_decodeOpen (keeps_countCue hu) ..) h ht
  | closeCue => exact keeps_takeRow (fun _ _ hu => keeps_decodeClose (keeps_countCue hu) ..) h ht
  | recordStart =>
    exact keeps_takeRow (fun _ _ hu => keeps_decodeRecordStart (keeps_countCue hu) ..) h ht
  | recordStop =>
    exact keeps_takeRow (fun _ _ hu => keeps_decodeRecordStop (keeps_countCue hu) ..) h ht
  | timeMark => exact keeps_takeRow (fun _ _ hu => keeps_decodeTimeMark (keeps_countCue hu) ..) h ht
  | unknownCue => exact keeps_takeRow (fun _ _ hu => keeps_decodeUnknown (keeps_countCue hu) _) h ht
  | command => exact keeps_takeRow (fun x _ hu => keeps_takeCommand hu x) h ht
  | commandMore => exact keeps_takeRow (fun x _ hu => keeps_takeMore hu x) h ht
  | replyPacketQueued => exact next_preserves (keeps_queueReply h) ht
  | unknownCommand => exact keeps_runRow (fun _ _ hu => hu) h ht
  | identify => exact keeps_sizedRow (fun hu _ => hu) h ht
  | unitSet => exact keeps_sizedRow keeps_unitSet h ht
  | deviceReset => exact keeps_sizedRow (fun hu _ => keeps_resetAround (keeps_drawFree hu) _) h ht
  | statusRead =>
    exact keeps_runRow (fun c => sized_preserves (fun b _ hu => keeps_statusRead hu _ b) c) h ht
  | alertSet => exact keeps_sizedRow keeps_alertSet h ht
  | alertClear => exact keeps_sizedRow (fun hu _ => keeps_clearAlert hu) h ht
  | channelSet => exact keeps_sizedRow keeps_channelSet h ht
  | channelReset => exact keeps_sizedRow keeps_channelReset h ht
  | clockSet => exact keeps_sizedRow keeps_clockSet h ht
  | cartFire => exact keeps_sizedRow keeps_cartFire h ht
  | dirRead =>
    exact keeps_runRow (fun c => sized_preserves (fun b u hu => by grind [dirRead, refuse]) c) h ht
  | dirWrite => exact keeps_sizedRow keeps_dirWrite h ht
  | dirErase => exact keeps_sizedRow keeps_dirErase h ht
  | ingestArm => exact keeps_sizedRow keeps_ingestArm h ht
  | ingestStop => exact keeps_sizedRow keeps_ingestStop h ht
  | ringRetire => exact keeps_sizedRow keeps_ringRetire h ht
  | breakLoadFirstPart => exact keeps_runRow (fun c _ hu => keeps_breakLoadFirst hu c) h ht
  | breakLoadContinuation =>
    exact keeps_runRow (fun _ _ hu => by split; exacts [keeps_loadContinuation hu _, hu]) h ht
  | breakCancel => exact keeps_sizedRow keeps_breakCancel h ht
  | breakList =>
    exact keeps_runRow (fun c => sized_preserves (fun b u hu => by grind [breakList, refuse]) c) h ht
  | breakFire => exact keeps_sizedRow keeps_breakFire h ht
  | breakAbort => exact keeps_sizedRow keeps_breakAbort h ht
  | voiceTrim => exact keeps_sizedRow keeps_voiceTrim h ht
  | gpiSet => exact keeps_sizedRow keeps_gpiSet h ht
  | gpoSet => exact keeps_sizedRow keeps_gpoSet h ht
  | asrunFetch =>
    exact keeps_runRow (fun c => sized_preserves (fun b _ hu => keeps_asrunFetch hu _ b) c) h ht
  | asrunDiscard => exact keeps_sizedRow keeps_asrunDiscard h ht

/-- An ingress frame that is taken lengthens a transit that has room by one frame. -/
theorem keeps_ingressFrame {f : TrunkFrame} {lag : Nat}
    (ht : exec (.ingressFrame f lag) s = .next t) :
    s.Keeps t ∨ ∃ u x, s.Keeps u ∧ u.tx.transit.length < 3 ∧ (u.joinTransit x).Keeps t := by
  simp only [exec, execIngressFrame] at ht
  split at ht
  · split at ht
    · next taken =>
      obtain ⟨-, room⟩ := Bool.and_eq_true_iff.1 taken
      have routed : s.Keeps (takeAllRouted (settle s)) := keeps_takeAllRouted (keeps_settle (.refl s))
      obtain ⟨x, kept⟩ := keeps_lockedFrame f lag (takeAllRouted (settle s))
      cases ht
      exact .inr ⟨_, x, routed, routed.transit.trans_lt (of_decide_eq_true room), kept⟩
    · cases ht
      exact .inl (.refl s)
  · cases ht

theorem exec_withinCapacity (i : Instr) (hs : s.withinCapacity) (ht : exec i s = .next t) :
    t.withinCapacity := by
  cases i
  case ingressFrame f lag =>
    obtain kept | ⟨u, x, routed, room, kept⟩ := keeps_ingressFrame ht
    · exact kept.withinCapacity hs
    · exact kept.withinCapacity (joinTransit_withinCapacity (routed.withinCapacity hs) room)
  all_goals exact (keeps_exec (by simp) (.refl s) ht).withinCapacity hs

theorem exec_directory (i : Instr) (hs : Canonical DirEntry.blank s.store.directory)
    (ht : exec i s = .next t) : Canonical DirEntry.blank t.store.directory := by
  cases i
  case ingressFrame f lag =>
    obtain kept | ⟨u, x, routed, room, kept⟩ := keeps_ingressFrame ht
    · exact kept.directory hs
    · exact kept.directory (routed.directory hs)
  all_goals exact (keeps_exec (by simp) (.refl s) ht).directory hs

/-- A step takes the command at the front or none. -/
theorem step_cases (h : step s = .next t) :
    t = s ∨ ∃ i rest, s.pending = i :: rest ∧ exec i (s.setPending rest) = .next t := by
  unfold step at h
  split at h
  · cases h
    exact .inl rfl
  · next i rest heq => exact .inr ⟨i, rest, heq, h⟩

end Keeps

/-- Settles O5: every row keeps the seven capacities. -/
theorem capacitiesKeptByEveryStep : Obligations.CapacitiesKeptByEveryStep := by
  intro s t hs h
  obtain rfl | ⟨i, rest, -, ht⟩ := step_cases h
  · exact hs
  · exact exec_withinCapacity i (s := s.setPending rest) hs ht

end Sys2Proof.Machine
end

section
/-! PROOFS. Which rows write clip memory and which move the air clock (sections 2.1, 2.5, 5.1): the
frames, the ingest engine and CLOCK_SET, and no other row. -/

namespace Sys2Proof.Machine

variable {s t : State}

/-! ### An egress frame -/

theorem State.still_eq_iff {m : List (Nat × Sample)} {p : List Instr} {a : AC} {b : Bool} :
    s.still = (m, p, a, b) ↔
      s.memory = m ∧ s.pending = p ∧ s.clock.ac = a ∧ s.clock.noneFormed = b := by
  simp only [State.still, Prod.mk.injEq]

theorem memory_of_still (h : t.still = s.still) : t.memory = s.memory :=
  (State.still_eq_iff.1 h).1

theorem nextAC_of_still (h : t.still = s.still) : t.nextAC = s.nextAC := by
  obtain ⟨-, -, hac, hnone⟩ := State.still_eq_iff.1 h
  simp only [State.nextAC, hac, hnone]

theorem afterFrame_still (f : TrunkFrame) (gpi : Byte) (s : State) :
    (afterFrame f gpi s).still = (s.memory, s.pending, s.nextAC, false) := by
  unfold afterFrame
  simp only [State.ite_still, sampleLines_still, forChannels_still _ judgeBlock_still, ite_self]
  rfl

/-- A frame formed stands at the next AC and leaves clip memory and the waiting commands (R87). -/
theorem formFrame_still (carried : Option (Vector Sample 16)) (gpi : Byte) (s : State) :
    (formFrame carried gpi s).still = (s.memory, s.pending, s.nextAC, false) := by
  have before : (mergerFrame (mixAll carried (handleThrough 15
      (boundaryMoves (reachMoments (openBreaks s))))).2).2.still = s.still := by simp
  obtain ⟨hmem, hpend, -, -⟩ := State.still_eq_iff.1 before
  have formed := afterFrame_still
  unfold formFrame
  rw [formed, nextAC_of_still before, hmem, hpend]

theorem formFrame_clock (carried : Option (Vector Sample 16)) (gpi : Byte) (s : State) :
    (formFrame carried gpi s).clock.ac = s.nextAC
      ∧ (formFrame carried gpi s).clock.noneFormed = false := by
  obtain ⟨-, -, clock⟩ := State.still_eq_iff.1 (formFrame_still carried gpi s)
  exact clock

theorem formFrame_memory (carried : Option (Vector Sample 16)) (gpi : Byte) (s : State) :
    (formFrame carried gpi s).memory = s.memory := by
  obtain ⟨memory, -⟩ := State.still_eq_iff.1 (formFrame_still carried gpi s)
  exact memory

theorem holdoverFrame_memory (gpi : Byte) (s : State) :
    (holdoverFrame gpi s).memory = s.memory := by
  unfold holdoverFrame
  rw [formFrame_memory]
  rfl

theorem holdoverFrame_clock (gpi : Byte) (s : State) :
    (holdoverFrame gpi s).clock.ac = s.nextAC
      ∧ (holdoverFrame gpi s).clock.noneFormed = false := by
  unfold holdoverFrame
  exact formFrame_clock none gpi _

theorem followFrame_nil (gpi : Byte) (h : s.tx.transit = []) : followFrame gpi s = s := by
  simp only [followFrame, h]

theorem followFrame_memory (gpi : Byte) (s : State) : (followFrame gpi s).memory = s.memory := by
  unfold followFrame
  split
  · rfl
  · rw [formFrame_memory]
    rfl

theorem followFrame_clock (gpi : Byte) (h : s.tx.transit ≠ []) :
    (followFrame gpi s).clock.ac = s.nextAC
      ∧ (followFrame gpi s).clock.noneFormed = false := by
  unfold followFrame
  split
  · next heq => exact absurd heq h
  · next f rest _ =>
    dsimp only
    generalize hu : s.setTx _ = u
    have ac : u.nextAC = s.nextAC := by rw [← hu]; rfl
    rw [← ac]
    exact formFrame_clock (some f.slots) gpi u

/-! ### The ingest engine -/

/-- A frame captured leaves the waiting commands and the clock's count. -/
theorem captureWords_still (l : List Sample) (s : State) :
    (captureWords l s).still.2 = s.still.2 := by
  induction l generalizing s with
  | nil => rfl
  | cons w l ih =>
    unfold captureWords
    split
    · rfl
    · dsimp only
      split
      · rfl
      · rw [discardIngest_still]
      · split
        · rfl
        · rw [ih]
          rfl

theorem captureFrame_still (f : TransitFrame) (s : State) :
    (captureFrame f s).still.2 = s.still.2 := by
  unfold captureFrame
  split
  · rfl
  · dsimp only
    repeat' split
    all_goals first
      | rfl
      | exact captureWords_still _ s

theorem captureWords_wf (l : List Sample) (h : Memory.wf s.memory) :
    Memory.wf (captureWords l s).memory := by
  have discarded (o : IngestOutcome) (u : State) : (discardIngest o u).memory = u.memory :=
    memory_of_still (discardIngest_still o u)
  induction l generalizing s with
  | nil => exact h
  | cons w l ih =>
    unfold captureWords
    split
    · exact h
    · dsimp only
      split
      · exact h
      · rw [discarded]
        exact h
      · split
        · exact writeWord_wf s _ w h
        · exact ih (writeWord_wf s _ w h)

theorem captureFrame_wf (f : TransitFrame) (h : Memory.wf s.memory) :
    Memory.wf (captureFrame f s).memory := by
  unfold captureFrame
  split
  · exact h
  · dsimp only
    repeat' split
    all_goals first
      | exact h
      | exact captureWords_wf _ h

/-- What follows the delivery of an ingress frame leaves clip memory and the clock. -/
theorem lockedFrame_still (f : TrunkFrame) (lag : Nat) (s : State) :
    ∃ x y, (lockedFrame f lag s).still = (deliverFrame x (s.setRx y)).still := by
  refine ⟨⟨s.carryingAC lag, if judgeFrame s.rx f == .good then f.slots else s.rx.held,
    judgeFrame s.rx f == .good⟩, s.rx.judged f (judgeFrame s.rx f), ?_⟩
  simp only [lockedFrame, reportJudgment_still, State.ite_still, laneFrame_still,
    breakPacket_still, ite_self]

theorem lockedFrame_clock (f : TrunkFrame) (lag : Nat) (s : State) :
    (lockedFrame f lag s).still.2 = s.still.2 := by
  obtain ⟨x, y, h⟩ := lockedFrame_still f lag s
  rw [h, deliverFrame_eq, captureFrame_still]
  rfl

theorem lockedFrame_wf (f : TrunkFrame) (lag : Nat) (h : Memory.wf s.memory) :
    Memory.wf (lockedFrame f lag s).memory := by
  obtain ⟨x, y, hs⟩ := lockedFrame_still f lag s
  rw [memory_of_still hs, deliverFrame_eq]
  exact captureFrame_wf x h

/-! ### The rows that leave clip memory and the clock -/

/-- The rows that neither form a frame, nor take one in, nor set the clock. -/
def leavesClock : Instr → Bool
  | .powerOnReset _ _ | .ingressFrame _ _ | .egressFrameFollow _ | .holdoverPeriodExpiry _
  | .firstHoldoverFrame _ | .clockSet => false
  | _ => true

/-- The state has the clip memory, the waiting commands and the clock's count of r. -/
def State.StillAs (r s : State) : Prop := s.still = r.still

variable {r : State}

theorem still_row {row : Command → Bool} {always : Bool} {f : Action}
    (worked : ∀ (c : Command) (u : State), (f c u).2.still = u.still)
    (ht : runRow row always f s = .next t) : t.still = s.still :=
  runRow_preserves (P := State.StillAs s) (fun u h => (settle_still u).trans h)
    (fun u h => (popCommand_still u).trans h) (fun c x u h => (answer_still c always x u).trans h)
    (fun c u h => (worked c u).trans h) rfl ht

theorem sized_still {n : Nat} {f : List Byte → State → Reply × State}
    (worked : ∀ (b : List Byte) (u : State), (f b u).2.still = u.still) (c : Command) (u : State) :
    (sized n f c u).2.still = u.still := by
  unfold sized
  split
  · exact worked c.body u
  · rfl

theorem still_sizedRow {row : Command → Bool} {always : Bool} {n : Nat}
    {f : List Byte → State → Reply × State}
    (worked : ∀ (b : List Byte) (u : State), (f b u).2.still = u.still)
    (ht : runRow row always (sized n f) s = .next t) : t.still = s.still :=
  still_row (sized_still worked) ht

theorem still_takeRow {test : Routed → Bool} {f : Routed → State → State}
    (worked : ∀ (x : Routed) (u : State), (f x u).still = u.still)
    (ht : takeRow test f s = .next t) : t.still = s.still :=
  takeRow_preserves (P := State.StillAs s) (fun u h => (settle_still u).trans h) (fun _ h => h)
    (fun x u h => (worked x u).trans h) rfl ht

theorem still_voiceRow {v : Nat} {test : State → Fin 16 → Bool}
    (ht : handleVoiceRow v test s = .next t) : t.still = s.still :=
  handleVoiceRow_preserves (P := State.StillAs s) (fun n u h => (handleThrough_still n u).trans h)
    (openBreaks_still s) rfl ht

theorem still_of_next {u : State} (h : u.still = s.still)
    (ht : (Host.Outcome.next u : Result) = .next t) : t.still = s.still :=
  next_preserves (P := State.StillAs s) h ht

/-- Such a row leaves clip memory, the waiting commands and the clock's count. -/
theorem exec_still {i : Instr} (hi : leavesClock i = true) (ht : exec i s = .next t) :
    t.still = s.still := by
  cases i with
  | powerOnReset straps gpi => cases hi
  | ingressFrame f lag => cases hi
  | egressFrameFollow gpi => cases hi
  | holdoverPeriodExpiry gpi => cases hi
  | firstHoldoverFrame gpi => cases hi
  | clockSet => cases hi
  | syncFound b => exact still_of_next (by simp) ht
  | verifyFrame b0 b1 => exact still_of_next (by simp) ht
  | ingestLimit => exact still_of_next (by simp) ht
  | ingestRegionEnd => exact still_of_next (by simp) ht
  | ingestCueStop => exact still_of_next (by simp) ht
  | silenceLimitReached c =>
    simp only [exec, execSilenceLimitReached] at ht
    split at ht
    · cases ht
    · exact still_of_next (by simp) ht
  | recoveryLimitReached c =>
    simp only [exec, execRecoveryLimitReached] at ht
    split at ht
    · cases ht
    · exact still_of_next (by simp) ht
  | voiceStart v => exact still_voiceRow ht
  | voiceEnd v => exact still_voiceRow ht
  | voiceFaded v => exact still_voiceRow ht
  | voiceEventDelivery => exact still_of_next (by simp) ht
  | breakOpen c =>
    simp only [exec, execBreakOpen] at ht
    split at ht
    · cases ht
    · exact still_of_next (by simp) ht
  | join c =>
    simp only [exec, execJoin] at ht
    split at ht
    · cases ht
    · exact still_of_next (by simp) ht
  | breakExpiry c n =>
    simp only [exec, execBreakExpiry] at ht
    split at ht
    · cases ht
    · split at ht
      · exact still_of_next (by simp) ht
      · cases ht
  | timeTrigger c =>
    simp only [exec, execTimeTrigger] at ht
    split at ht
    · cases ht
    · exact still_of_next (by simp) ht
  | assemblyTimeout =>
    simp only [exec, execAssemblyTimeout] at ht
    exact still_of_next (by simp) ht
  | gpiLevelChange gpi =>
    simp only [exec, execGpiLevelChange] at ht
    exact still_of_next (by simp) ht
  | openCue =>
    exact still_takeRow (fun x u => (decodeOpen_still x.payload _ _).trans (countCue_still u)) ht
  | closeCue =>
    exact still_takeRow (fun x u => (decodeClose_still x.payload _ _).trans (countCue_still u)) ht
  | recordStart =>
    exact still_takeRow (fun x u => (decodeRecordStart_still x.payload _ _).trans (countCue_still u)) ht
  | recordStop =>
    exact still_takeRow (fun x u => (decodeRecordStop_still x.payload _ _).trans (countCue_still u)) ht
  | timeMark =>
    exact still_takeRow (fun x u => (decodeTimeMark_still x.payload _ _).trans (countCue_still u)) ht
  | unknownCue =>
    exact still_takeRow (fun x u => (decodeUnknown_still x.payload _).trans (countCue_still u)) ht
  | command => exact still_takeRow takeCommand_still ht
  | commandMore => exact still_takeRow takeMore_still ht
  | replyPacketQueued => exact still_of_next (queueReply_still s) ht
  | unknownCommand => exact still_row (fun _ _ => rfl) ht
  | identify => exact still_sizedRow (fun _ _ => rfl) ht
  | unitSet => exact still_sizedRow unitSet_still ht
  | deviceReset => exact still_sizedRow deviceReset_still ht
  | statusRead => exact still_row (fun c => sized_still (statusRead_still _) c) ht
  | alertSet => exact still_sizedRow alertSet_still ht
  | alertClear => exact still_sizedRow alertClear_still ht
  | channelSet => exact still_sizedRow channelSet_still ht
  | channelReset => exact still_sizedRow channelReset_still ht
  | cartFire => exact still_sizedRow cartFire_still ht
  | dirRead => exact still_row (fun c => sized_still (dirRead_still _) c) ht
  | dirWrite => exact still_sizedRow dirWrite_still ht
  | dirErase => exact still_sizedRow dirErase_still ht
  | ingestArm => exact still_sizedRow ingestArm_still ht
  | ingestStop => exact still_sizedRow ingestStop_still ht
  | ringRetire => exact still_sizedRow ringRetire_still ht
  | breakLoadFirstPart => exact still_row breakLoadFirst_still ht
  | breakLoadContinuation =>
    exact still_row (fun c u => by split; exacts [loadContinuation_still c.body u, rfl]) ht
  | breakCancel => exact still_sizedRow breakCancel_still ht
  | breakList => exact still_row (fun c => sized_still (breakList_still _) c) ht
  | breakFire => exact still_sizedRow breakFire_still ht
  | breakAbort => exact still_sizedRow breakAbort_still ht
  | voiceTrim => exact still_sizedRow voiceTrim_still ht
  | gpiSet => exact still_sizedRow gpiSet_still ht
  | gpoSet => exact still_sizedRow gpoSet_still ht
  | asrunFetch => exact still_row (fun c => sized_still (asrunFetch_still _) c) ht
  | asrunDiscard => exact still_sizedRow asrunDiscard_still ht

/-! ### The other rows -/

theorem clockSet_kept (b : List Byte) (s : State) :
    (clockSet b s).2.memory = s.memory
      ∧ (clockSet b s).2.clock.noneFormed = s.clock.noneFormed := by
  unfold clockSet
  split
  · exact ⟨rfl, rfl⟩
  · exact ⟨rfl, rfl⟩

/-- CLOCK_SET leaves clip memory, and whether a frame has been formed. -/
theorem exec_clockSet_kept (ht : exec .clockSet s = .next t) :
    t.memory = s.memory ∧ t.clock.noneFormed = s.clock.noneFormed := by
  have of_still {u v : State} (h : v.still = u.still) :
      v.memory = u.memory ∧ v.clock.noneFormed = u.clock.noneFormed := by
    obtain ⟨memory, -, -, none⟩ := State.still_eq_iff.1 h
    exact ⟨memory, none⟩
  let P (u : State) := u.memory = s.memory ∧ u.clock.noneFormed = s.clock.noneFormed
  have step {u v : State} (h : v.memory = u.memory ∧ v.clock.noneFormed = u.clock.noneFormed)
      (hu : P u) : P v := ⟨h.1.trans hu.1, h.2.trans hu.2⟩
  exact runRow_preserves (P := P) (fun u => step (of_still (settle_still u)))
    (fun u => step (of_still (popCommand_still u)))
    (fun c x u => step (of_still (answer_still c false x u)))
    (sized_preserves fun b u => step (clockSet_kept b u)) ⟨rfl, rfl⟩ ht

/-- An ingress frame that is not taken leaves clip memory, and none moves the clock. -/
theorem exec_ingressFrame_kept {f : TrunkFrame} {lag : Nat}
    (ht : exec (.ingressFrame f lag) s = .next t) :
    t.still.2 = s.still.2 ∧ (s.frameTaken = false → t.memory = s.memory)
      ∧ (Memory.wf s.memory → Memory.wf t.memory) := by
  have before : (takeAllRouted (settle s)).still = s.still := by simp
  simp only [exec, execIngressFrame] at ht
  split at ht
  · cases htaken : s.frameTaken with
    | true =>
      rw [htaken, if_pos rfl] at ht
      cases ht
      refine ⟨?_, by simp, fun h => ?_⟩
      · rw [lockedFrame_clock, before]
      · exact lockedFrame_wf f lag (by rwa [memory_of_still before])
    | false =>
      rw [htaken, if_neg Bool.false_ne_true] at ht
      cases ht
      exact ⟨rfl, fun _ => rfl, id⟩
  · cases ht

theorem frameTaken_iff (s : State) :
    s.frameTaken = true ↔ s.locked = true ∧ s.tx.transit.length < 3 := by
  simp [State.frameTaken]

/-- Settles O6: the frames, CLOCK_SET and every other row leave clip memory, and an ingress frame
writes it only when it is taken. -/
theorem onlyIngressFramesWriteClips : Obligations.OnlyIngressFramesWriteClips := by
  intro i s t ht hne
  cases hi : leavesClock i with
  | true => exact absurd (memory_of_still (exec_still hi ht)) hne
  | false =>
    cases i with
    | powerOnReset straps gpi => exact .inr ⟨straps, gpi, rfl⟩
    | ingressFrame f lag =>
      obtain ⟨-, kept, -⟩ := exec_ingressFrame_kept ht
      have taken : s.frameTaken = true := by
        by_contra h
        exact hne (kept (Bool.eq_false_iff.2 h))
      obtain ⟨locked, room⟩ := (frameTaken_iff s).1 taken
      exact .inl ⟨f, lag, rfl, locked, room⟩
    | egressFrameFollow gpi =>
      cases ht
      exact absurd (followFrame_memory gpi s) hne
    | holdoverPeriodExpiry gpi =>
      cases ht
      exact absurd (by split; exacts [holdoverFrame_memory gpi s, rfl]) hne
    | firstHoldoverFrame gpi =>
      cases ht
      exact absurd (by split; exacts [holdoverFrame_memory gpi s, rfl]) hne
    | clockSet => exact absurd (exec_clockSet_kept ht).1 hne
    | _ => cases hi

/-- Settles O7, by the row: a frame row forms a frame at the next AC, and every row but those and
CLOCK_SET leaves the count. -/
theorem airClockCountsEgressFrames : Obligations.AirClockCountsEgressFrames := by
  intro i s t ht
  have other (hi : leavesClock i = true) :
      t.clock.ac = s.clock.ac ∧ t.clock.noneFormed = s.clock.noneFormed := by
    obtain ⟨-, -, clock⟩ := State.still_eq_iff.1 (exec_still hi ht)
    exact clock
  cases i with
  | egressFrameFollow gpi =>
    cases ht
    dsimp only
    split
    · next h => exact followFrame_nil gpi h
    · next h => exact followFrame_clock gpi h
  | holdoverPeriodExpiry gpi =>
    cases ht
    dsimp only
    split
    · exact holdoverFrame_clock gpi s
    · rfl
  | firstHoldoverFrame gpi =>
    cases ht
    dsimp only
    split
    · exact holdoverFrame_clock gpi s
    · rfl
  | powerOnReset straps gpi =>
    have first : (powerOnState straps s).nextAC = 0 := rfl
    have formed := holdoverFrame_clock gpi (powerOnState straps s)
    rw [first] at formed
    exact next_preserves (P := fun u => u.clock.ac = 0 ∧ u.clock.noneFormed = false) formed ht
  | clockSet => exact (exec_clockSet_kept ht).2
  | ingressFrame f lag =>
    obtain ⟨clock, -, -⟩ := exec_ingressFrame_kept ht
    simpa only [State.still, Prod.mk.injEq] using clock |> (congrArg Prod.snd ·)
  | _ => exact other rfl

/-! ### The canonical forms -/

theorem exec_memory_wf (i : Instr) (hs : Memory.wf s.memory) (ht : exec i s = .next t) :
    Memory.wf t.memory := by
  by_cases hm : t.memory = s.memory
  · rwa [hm]
  · obtain ⟨f, lag, rfl, -⟩ | ⟨straps, gpi, rfl⟩ := onlyIngressFramesWriteClips i s t ht hm
    · obtain ⟨-, -, kept⟩ := exec_ingressFrame_kept ht
      exact kept hs
    · have unwritten : (holdoverFrame gpi (powerOnState straps s)).memory = [] :=
        holdoverFrame_memory ..
      exact next_preserves (P := fun u => Memory.wf u.memory)
        (by rw [unwritten]; exact reset_memory_wf) ht

/-- Settles O4: clip memory changes in ingress frames only, word by word, and every row keeps the
directory's form. -/
theorem formsKeptByEveryStep : Obligations.FormsKeptByEveryStep := by
  intro s t ⟨memory, directory⟩ h
  obtain rfl | ⟨i, rest, -, ht⟩ := step_cases h
  · exact ⟨memory, directory⟩
  · exact ⟨exec_memory_wf i (s := s.setPending rest) memory ht,
      exec_directory i (s := s.setPending rest) directory ht⟩

end Sys2Proof.Machine
end

section
/-! PROOFS. Numbers as bytes (R195): what a field of bytes reads back. -/

namespace Sys2Proof.Machine

theorem toBytes_length (n k : Nat) : (toBytes n k).length = k := by
  induction k with
  | zero => rfl
  | succ k ih => rw [toBytes, List.length_cons, ih]

theorem beNat_foldl (l : List Byte) (a : Nat) :
    l.foldl (fun n b => n * 256 + b.toNat) a = a * 256 ^ l.length + beNat l := by
  induction l generalizing a with
  | nil => simp [beNat]
  | cons b l ih =>
    rw [beNat, List.foldl_cons, List.foldl_cons, ih, ih, List.length_cons, Nat.pow_succ']
    ring

theorem beNat_cons (b : Byte) (l : List Byte) :
    beNat (b :: l) = b.toNat * 256 ^ l.length + beNat l := by
  have h := beNat_foldl l b.toNat
  simpa only [beNat, List.foldl_cons, Nat.zero_mul, Nat.zero_add] using h

/-- A number as k bytes reads back mod 256^k. -/
theorem beNat_toBytes (n k : Nat) : beNat (toBytes n k) = n % 256 ^ k := by
  induction k with
  | zero => simp [toBytes, beNat, Nat.mod_one]
  | succ k ih =>
    have split : n % (256 ^ k * 256) = n % 256 ^ k + 256 ^ k * (n / 256 ^ k % 256) := Nat.mod_mul
    have byte : (BitVec.ofNat 8 (n / 256 ^ k)).toNat = n / 256 ^ k % 256 := rfl
    rw [toBytes, beNat_cons, toBytes_length, ih, byte, Nat.pow_succ, split]
    ring

theorem field_toBytes (n k : Nat) : field (toBytes n k) 0 k = n % 256 ^ k := by
  rw [field, List.drop_zero, List.take_of_length_le (toBytes_length n k).le, beNat_toBytes]

theorem field_append_right (l m : List Byte) {off n : Nat} (h : l.length ≤ off) :
    field (l ++ m) off n = field m (off - l.length) n := by
  rw [field, List.drop_append, List.drop_of_length_le h, List.nil_append, field]

theorem field_append_left (l m : List Byte) {off n : Nat} (h : off + n ≤ l.length) :
    field (l ++ m) off n = field l off n := by
  rw [field, field, List.drop_append_of_le_length (by omega),
    List.take_append_of_le_length (by rw [List.length_drop]; omega)]

theorem byteAt_append_right (l m : List Byte) {off : Nat} (h : l.length ≤ off) :
    byteAt (l ++ m) off = byteAt m (off - l.length) := by
  rw [byteAt, byteAt, List.getD_append_right _ _ _ _ h]

theorem byteAt_append_left (l m : List Byte) {off : Nat} (h : off < l.length) :
    byteAt (l ++ m) off = byteAt l off := by
  rw [byteAt, byteAt, List.getD_append _ _ _ _ h]

theorem byteAt_cons_zero (b : Byte) (l : List Byte) : byteAt (b :: l) 0 = b.toNat := rfl

theorem byteAt_cons_succ (b : Byte) (l : List Byte) (i : Nat) :
    byteAt (b :: l) (i + 1) = byteAt l i := rfl

/-- A one-byte field is the byte. -/
theorem field_one (l : List Byte) {off : Nat} (h : off < l.length) :
    field l off 1 = byteAt l off := by
  rw [field, byteAt, List.getD_eq_getElem _ _ h, List.drop_eq_getElem_cons h, List.take_succ_cons,
    List.take_zero, beNat_cons]
  simp [beNat]

end Sys2Proof.Machine
end

section
/-! PROOFS. The rows of the table: when one completes, and the row of a command on a waiting command. -/

namespace Sys2Proof.Machine

open Claim

/-! ### Steps and rows -/

/-- Settles O1, by the queue of waiting commands. -/
theorem stepRunsTheFrontCommand : Obligations.StepRunsTheFrontCommand := by
  refine ⟨fun s c rest => rfl, fun s h => ?_⟩
  simp only [step, h]

theorem channelOf_val (c : Fin 4) : channelOf c.val = some c := by
  simp only [channelOf, c.isLt, dif_pos]

theorem channelOf_of_lt {c : Nat} (h : c < 4) : channelOf c = some ⟨c, h⟩ := dif_pos h

theorem channelOf_of_le {c : Nat} (h : 4 ≤ c) : channelOf c = none := dif_neg (by omega)

theorem voiceOf_val (v : Fin 16) : voiceOf v.val = some v := by
  simp only [voiceOf, v.isLt, dif_pos]

theorem voiceOf_of_lt {v : Nat} (h : v < 16) : voiceOf v = some ⟨v, h⟩ := dif_pos h

theorem voiceOf_of_le {v : Nat} (h : 16 ≤ v) : voiceOf v = none := dif_neg (by omega)

/-- A command completes. -/
def completes (i : Instr) (s : State) : Prop := ∃ t, exec i s = .next t

theorem takeRow_next (test : Routed → Bool) (f : Routed → State → State) (s : State) :
    ∃ t, takeRow test f s = .next t := by
  unfold takeRow
  split
  · exact ⟨_, rfl⟩
  · exact ⟨_, rfl⟩

theorem channelRow_next_iff {f : Fin 4 → State} {c : Nat} :
    (∃ t, (match channelOf c with
      | none => .fault .noSuchChannel
      | some c => .next (f c) : Result) = .next t) ↔ c < 4 := by
  by_cases h : c < 4
  · simp [channelOf_of_lt h, h]
  · simp [channelOf_of_le (Nat.le_of_not_lt h), h]

theorem handleVoiceRow_next_iff {v : Nat} {test : State → Fin 16 → Bool} {s : State} :
    (∃ t, handleVoiceRow v test s = .next t) ↔ v < 16 := by
  unfold handleVoiceRow
  by_cases h : v < 16
  · simp [voiceOf_of_lt h, h]
  · simp [voiceOf_of_le (Nat.le_of_not_lt h), h]

theorem exec_ingressFrame_late (f : TrunkFrame) {n : Nat} (s : State) (h : 2 < n) :
    exec (.ingressFrame f n) s = .fault .noSuchLag := if_neg (by omega)

theorem breakExpiry_next_iff {c n : Nat} {s : State} :
    (∃ t, exec (.breakExpiry c n) s = .next t) ↔ c < 4 ∧ 1 ≤ n ∧ n ≤ 65535 := by
  simp only [exec, execBreakExpiry]
  by_cases hc : c < 4
  · by_cases hn : 1 ≤ n ∧ n ≤ 65535
    · simp [channelOf_of_lt hc, hc, hn]
    · simp [channelOf_of_lt hc, hc, hn]
  · simp [channelOf_of_le (Nat.le_of_not_lt hc), hc]

theorem exec_openCue (s : State) : exec .openCue s =
    takeRow (isCue .openCue) (fun r s => decodeOpen r.payload r.ref (countCue s)) s := rfl

theorem exec_closeCue (s : State) : exec .closeCue s =
    takeRow (isCue .closeCue) (fun r s => decodeClose r.payload r.ref (countCue s)) s := rfl

theorem exec_recordStart (s : State) : exec .recordStart s =
    takeRow (isCue .recordStart) (fun r s => decodeRecordStart r.payload r.ref (countCue s)) s := rfl

theorem exec_recordStop (s : State) : exec .recordStop s =
    takeRow (isCue .recordStop) (fun r s => decodeRecordStop r.payload r.ref (countCue s)) s := rfl

theorem exec_timeMark (s : State) : exec .timeMark s =
    takeRow (isCue .timeMark) (fun r s => decodeTimeMark r.payload r.ref (countCue s)) s := rfl

theorem exec_unknownCue (s : State) : exec .unknownCue s =
    takeRow (isCue .unknown) (fun r s => decodeUnknown r.payload (countCue s)) s := rfl

theorem exec_command (s : State) : exec .command s =
    takeRow (fun r => r.route == .command) takeCommand s := rfl

theorem exec_commandMore (s : State) : exec .commandMore s =
    takeRow (fun r => r.route == .commandMore) takeMore s := rfl

/-- A row completes exactly when its operand names a unit of the part. -/
theorem exec_next_iff (i : Instr) (s : State) :
    (∃ t, exec i s = .next t) ↔ i.wellFormed = true := by
  have always {u : State} : (∃ t, (Host.Outcome.next u : Result) = .next t) ↔ true = true :=
    ⟨fun _ => rfl, fun _ => ⟨u, rfl⟩⟩
  have routed {i : Instr} {test : Routed → Bool} {f : Routed → State → State}
      (h : exec i s = takeRow test f s) : (∃ t, exec i s = .next t) ↔ true = true :=
    ⟨fun _ => rfl, fun _ => h ▸ takeRow_next test f s⟩
  cases i with
  | ingressFrame f n =>
    by_cases h : n ≤ 2
    · simp [exec, execIngressFrame, Instr.wellFormed, h]
    · simp [exec, execIngressFrame, Instr.wellFormed, h]
  | silenceLimitReached c => exact channelRow_next_iff.trans decide_eq_true_iff.symm
  | recoveryLimitReached c => exact channelRow_next_iff.trans decide_eq_true_iff.symm
  | breakOpen c => exact channelRow_next_iff.trans decide_eq_true_iff.symm
  | join c => exact channelRow_next_iff.trans decide_eq_true_iff.symm
  | timeTrigger c => exact channelRow_next_iff.trans decide_eq_true_iff.symm
  | voiceStart v => exact handleVoiceRow_next_iff.trans decide_eq_true_iff.symm
  | voiceEnd v => exact handleVoiceRow_next_iff.trans decide_eq_true_iff.symm
  | voiceFaded v => exact handleVoiceRow_next_iff.trans decide_eq_true_iff.symm
  | breakExpiry c n =>
    rw [breakExpiry_next_iff]
    simp [Instr.wellFormed, and_assoc]
  | openCue => exact routed (exec_openCue s)
  | closeCue => exact routed (exec_closeCue s)
  | recordStart => exact routed (exec_recordStart s)
  | recordStop => exact routed (exec_recordStop s)
  | timeMark => exact routed (exec_timeMark s)
  | unknownCue => exact routed (exec_unknownCue s)
  | command => exact routed (exec_command s)
  | commandMore => exact routed (exec_commandMore s)
  | assemblyTimeout =>
    simp only [exec, execAssemblyTimeout]
    exact always
  | gpiLevelChange gpi =>
    simp only [exec, execGpiLevelChange]
    exact always
  | _ => exact always

/-- Settles O2: the rows with an operand answer by its check, the others always complete. -/
theorem completesExactlyWhenWellFormed : Obligations.CompletesExactlyWhenWellFormed := by
  refine ⟨exec_next_iff, fun c s h => ?_, fun v s h => ?_, fun c n s hc hn => ?_,
    fun f n s h => exec_ingressFrame_late f s h⟩
  · have none := channelOf_of_le h
    simp only [exec, execSilenceLimitReached, execRecoveryLimitReached, execBreakOpen, execJoin,
      execBreakExpiry, execTimeTrigger, none, implies_true, and_self]
  · have none := voiceOf_of_le h
    simp only [exec, execVoiceStart, execVoiceEnd, execVoiceFaded, handleVoiceRow, none, and_self]
  · have bad : ¬(1 ≤ n ∧ n ≤ 65535) := by omega
    simp only [exec, execBreakExpiry, channelOf_of_lt hc, if_neg bad]

/-- Settles O3, on the reset state as written. -/
theorem resetStateIsSafe : Obligations.ResetStateIsSafe := by
  have queues (c : Fin 4) : (State.reset.ch c).queue = [] := by fin_cases c <;> rfl
  refine ⟨⟨⟨reset_memory_wf, List.Pairwise.nil, fun _ h => absurd h List.not_mem_nil⟩, ?_⟩, ?_⟩
  · refine ⟨Nat.zero_le _, Nat.zero_le _, Nat.zero_le _, Nat.zero_le _, Nat.zero_le _,
      Nat.zero_le _, fun c => ?_⟩
    rw [queues]
    exact Nat.zero_le _
  · decide

/-! ### The receiver's way to LOCKED (R3, R4) -/

theorem isSync_iff (b0 b1 : Byte) : isSync b0 b1 = true ↔ b0 = 0x9C ∧ b1 = 0x63 := by
  simp [isSync]

theorem searchByte_eq (b : Byte) (s : State) :
    searchByte b s = s.setRx (if s.rx.prevByte = some 0x9C ∧ b = 0x63 then
        { s.rx with lock := .verify, verifyRun := 1, prevByte := none }
      else { s.rx with prevByte := some b }) := by
  unfold searchByte
  cases s.rx.prevByte with
  | none => simp
  | some p =>
    dsimp only
    by_cases h : isSync p b = true
    · have hb := (isSync_iff p b).1 h
      rw [if_pos h, if_pos ⟨congrArg some hb.1, hb.2⟩]
    · have hb : ¬(some p = some 0x9C ∧ b = 0x63) := fun ⟨hp, hb⟩ =>
        h ((isSync_iff p b).2 ⟨Option.some.inj hp, hb⟩)
      rw [if_neg h, if_neg hb]

theorem verifyBytes_eq (b0 b1 : Byte) (s : State) :
    verifyBytes b0 b1 s =
      if b0 = 0x9C ∧ b1 = 0x63 then
        if s.rx.verifyRun < 3 then s.setRx { s.rx with verifyRun := s.rx.verifyRun + 1 }
        else raiseAlert .lock (s.setRx { s.rx with lock := .locked, verifyRun := 0, missRun := 0 })
      else s.setRx { s.rx with lock := .search, verifyRun := 0, prevByte := some b1 } := by
  simp only [verifyBytes, isSync_iff, enterLocked, Nat.succ_lt_succ_iff]

/-- Settles O11: in SEARCH and in VERIFY the row is its one byte or its two. -/
theorem huntAndVerify : Obligations.HuntAndVerify := by
  refine ⟨fun b s h => ?_, fun b0 b1 s h hs => ?_⟩
  · rw [← searchByte_eq]
    simp only [exec, execSyncFound, h, if_true]
  · rw [← verifyBytes_eq]
    simp only [exec, execVerifyFrame, h, settle_of_settled hs, if_true]

/-! ### The ends of an ingest (R31, R32) -/

theorem settleIngest_of_ending {s : State} {g : Ingest} {o : IngestOutcome}
    (hg : s.store.engine = some g) (ho : g.ending = some o) : settleIngest s = endIngest o s := by
  simp only [settleIngest, hg, ho]

theorem keptLength_mono {e : DirEntry} (h : e.layout = .mono) (g : Ingest) :
    keptLength e g = g.words := by simp only [keptLength, h, if_true]

/-- An ingest with no clip frame kept leaves an EMPTY entry. -/
theorem endIngest_of_nothing {s : State} {g : Ingest} (o : IngestOutcome)
    (hg : s.store.engine = some g) (hk : keptLength (s.entry g.arm.clip) g = 0) :
    endIngest o s = reportIngest g.arm.clip .emptyClip 0 (emptyEntry g.arm.clip s) := by
  simp only [endIngest, hg, hk, if_true]

/-- A library ingest that kept frames becomes READY. -/
theorem endIngest_library {s : State} {g : Ingest} (o : IngestOutcome)
    (hg : s.store.engine = some g) (hk : keptLength (s.entry g.arm.clip) g ≠ 0)
    (hr : (s.entry g.arm.clip).region = .library) :
    endIngest o s = reportIngest g.arm.clip o (keptLength (s.entry g.arm.clip) g)
      (s.setEntry g.arm.clip { s.entry g.arm.clip with
        state := .ready, length := keptLength (s.entry g.arm.clip) g
        damage := min g.failed 65535 }) := by
  simp only [endIngest, hg, hk, if_false, hr, reduceCtorEq]

/-- Settles O16: each row is due at its end and carries it out. -/
theorem ingestEndsWithItsReport : Obligations.IngestEndsWithItsReport := by
  intro s g i o hi hg ho hw hr hl
  have kept := keptLength_mono hl g
  have due : s.endingIs o = true := by simp only [State.endingIs, hg, ho, beq_self_eq_true]
  have run : exec i s = .next (settleIngest s) := by
    rcases hi with ⟨rfl, rfl⟩ | ⟨rfl, rfl⟩ | ⟨rfl, rfl⟩
    all_goals exact congrArg Host.Outcome.next (if_pos due)
  rw [run, settleIngest_of_ending hg ho, endIngest_library o hg (by omega) hr, kept]
  rfl

/-! ### A command row on a waiting command (R182 to R184) -/

/-- The row of a command runs its work on the state with the command taken. -/
theorem answers_of_row {i : Instr} {row : Command → Bool} {f : Action} {s : State} {src : Byte}
    {h : CmdHeader} {body : List Byte} {rest : List Command} {r : Reply} {t : State}
    (hexec : exec i s = runRow row false f s) (hready : ready s src h body rest)
    (hrow : row ⟨src, h, body⟩ = true) (hf : f ⟨src, h, body⟩ (taken s rest) = (r, t)) :
    answers i s src h r t := by
  obtain ⟨settled, noBuild, queue⟩ := hready
  change f ⟨src, h, body⟩ (s.setCmd { s.cmd with queue := rest }) = (r, t) at hf
  rw [answers, hexec, runRow_due settled noBuild queue hrow, hf, answer_eq_replied]

/-- The row of a command with one body length, by what its work answers. -/
theorem answers_of_work {i : Instr} {code n : Nat} {f : List Byte → State → Reply × State}
    {s : State} {src : Byte} {h : CmdHeader} {body : List Byte} {rest : List Command} {r : Reply}
    {t : State} (hexec : exec i s = runRow (hasCode code) false (sized n f) s)
    (hready : ready s src h body rest) (hcode : h.code = code) (hlen : body.length = n)
    (hf : f body (taken s rest) = (r, t)) : answers i s src h r t :=
  answers_of_row hexec hready (beq_iff_eq.2 hcode) ((sized_of_length _ hlen).trans hf)

/-- A refusal is answered whether or not the row answers always. -/
theorem answers_refused {i : Instr} {row : Command → Bool} {always : Bool} {f : Action}
    {s : State} {src : Byte} {h : CmdHeader} {body : List Byte} {rest : List Command} {e : ErrFlag}
    (hexec : exec i s = runRow row always f s) (hready : ready s src h body rest)
    (hrow : row ⟨src, h, body⟩ = true)
    (hf : f ⟨src, h, body⟩ (taken s rest) = refuse e (taken s rest)) :
    answers i s src h (.refused e) (taken s rest) := by
  obtain ⟨settled, noBuild, queue⟩ := hready
  change f ⟨src, h, body⟩ (s.setCmd { s.cmd with queue := rest }) = _ at hf
  rw [answers, hexec, runRow_due settled noBuild queue hrow, hf]
  simp only [refuse, answer, replied, limitReply, Reply.made, Bool.or_true, if_true]

theorem sized_of_length_ne {n : Nat} {f : List Byte → State → Reply × State} {src : Byte}
    {h : CmdHeader} {body : List Byte} (s : State) (hlen : body.length ≠ n) :
    sized n f ⟨src, h, body⟩ s = refuse .badLength s := if_neg hlen

/-- Settles O39: a code no row names, and for each command of one length the row of its code. -/
theorem unknownCodeAndLengthAreRefused : Obligations.UnknownCodeAndLengthAreRefused := by
  intro s src h body rest hready
  refine ⟨fun hcode => ?_, fun i code n hmem hcode hlen => ?_⟩
  · have unknown : (!knownCodes.contains h.code) = true := by simpa using hcode
    exact answers_refused (row := fun c => !knownCodes.contains c.header.code) rfl hready unknown rfl
  · have row : hasCode code ⟨src, h, body⟩ = true := beq_iff_eq.2 hcode
    fin_cases hmem
    all_goals exact answers_refused rfl hready row (if_neg hlen)

end Sys2Proof.Machine
end

section
/-! PROOFS. The commands that set one thing: ALERT_SET, UNIT_SET, DIR_WRITE, DIR_ERASE, GPI_SET, GPO_SET
and BREAK_FIRE. -/

namespace Sys2Proof.Machine

open Claim

variable {s : State} {src : Byte} {h : CmdHeader} {body : List Byte} {rest : List Command}

/-! ### ALERT_SET (R193) -/

theorem exec_alertSet (s : State) :
    exec .alertSet s = runRow (hasCode 0x05) false (sized 5 alertSet) s := rfl

theorem alertSet_bytes (mask : BitVec 32) (dest : Byte) (s : State) :
    alertSet (toBytes mask.toNat 4 ++ [dest]) s =
      if 2 ^ 28 ≤ mask.toNat ∨ mask ≠ 0 ∧ dest = 0 then refuse .badField s
      else (.done false false (toBytes mask.toNat 4 ++ [dest]),
        s.setAlert { s.alert with mask := mask, dest := dest }) := by
  have hmask : field (toBytes mask.toNat 4 ++ [dest]) 0 4 = mask.toNat := by
    rw [field_append_left _ _ (by rw [toBytes_length]), field_toBytes]
    exact Nat.mod_eq_of_lt mask.isLt
  have hdest : byteAt (toBytes mask.toNat 4 ++ [dest]) 4 = dest.toNat := by
    rw [byteAt_append_right _ _ (by rw [toBytes_length]), toBytes_length, byteAt_cons_zero]
  have zero : mask.toNat ≠ 0 ↔ mask ≠ 0 := not_congr (BitVec.toNat_inj (y := 0))
  have none : dest.toNat = 0 ↔ dest = 0 := BitVec.toNat_inj (y := 0)
  simp only [alertSet, hmask, hdest, zero, none, BitVec.ofNat_toNat, BitVec.setWidth_eq,
    State.setAlert_alert]

/-- Settles O44, by the fields the body carries. -/
theorem alertSetReplacesTheMask : Obligations.AlertSetReplacesTheMask := by
  intro s src h mask dest rest hready hcode bad
  have len : (toBytes mask.toNat 4 ++ [dest]).length = 5 := by
    rw [List.length_append, toBytes_length]; rfl
  have run {r : Reply} {t : State} := answers_of_work (r := r) (t := t) (exec_alertSet s) hready
    hcode len
  refine ⟨fun hb => run ?_, fun hb => run ?_, fun t a ht => raiseAlert_masked ?_⟩
  · rw [alertSet_bytes, if_pos hb, refuse]
  · rw [alertSet_bytes, if_neg hb, taken_alert]
  · rw [ht]
    exact BitVec.zero_and

/-! ### UNIT_SET (R187) -/

theorem exec_unitSet (s : State) :
    exec .unitSet s = runRow (hasCode 0x02) false (sized 8 unitSet) s := rfl

theorem presentIf_any (p i x : Nat) (f : Nat → Bool) :
    (presentIf p i x).any f = (p.testBit i && f x) := by
  cases h : p.testBit i <;> simp [presentIf, h]

theorem presentIf_isSome (p i x : Nat) : (presentIf p i x).isSome = p.testBit i := by
  cases h : p.testBit i <;> simp [presentIf, h]

theorem presentIf_map_getD {α : Type} (p i x : Nat) (f : Nat → α) (d : α) :
    ((presentIf p i x).map f).getD d = if p.testBit i then f x else d := by
  cases h : p.testBit i <;> simp [presentIf, h]

theorem allEmpty_eq (s : State) :
    s.allEmpty = !s.store.directory.any fun p => p.2.state != .empty := by
  simp only [State.allEmpty, List.all_eq_not_any_not, bne]

theorem unitEdit_check_eq (b : List Byte) (s : State) :
    (unitEdit b).check s =
      if (byteAt b 0).testBit 0 && decide (239 < byteAt b 1)
          || (byteAt b 0).testBit 1 && !(byteAt b 2 == 0
              || decide (240 ≤ byteAt b 2) && decide (byteAt b 2 ≤ 254))
          || (byteAt b 0).testBit 3 && decide (4096 < field b 5 2) then some .badField
      else if (byteAt b 0).testBit 3 && s.store.directory.any fun p => p.2.state != .empty then
        some .state
      else none := by
  simp only [UnitEdit.check, unitEdit, presentIf_any, presentIf_isSome, groupAllowed, allEmpty_eq,
    Bool.not_not, Bool.or_eq_true, gt_iff_lt]
  grind

theorem clampNat_ne (lo hi x : Nat) (h : lo ≤ hi) :
    (clampNat lo hi x != x) = (decide (x < lo) || decide (hi < x)) := by
  rw [Bool.eq_iff_iff]
  simp only [clampNat, bne_iff_ne, Bool.or_eq_true, decide_eq_true_eq]
  omega

theorem unitEdit_clamped_eq (b : List Byte) :
    (unitEdit b).clamped =
      ((byteAt b 0).testBit 2 && (decide (field b 3 2 < 508) || decide (516 < field b 3 2))
        || (byteAt b 0).testBit 4 && decide (8 < byteAt b 7)) := by
  simp only [UnitEdit.clamped, unitEdit, presentIf_any, clampNat_ne 508 516 _ (by omega), gt_iff_lt]

theorem unitEdit_apply_eq (b : List Byte) (u : State) :
    (unitEdit b).apply u =
      (((u.setLane { u.lane with
          unitAddr := if (byteAt b 0).testBit 0 then BitVec.ofNat 8 (byteAt b 1)
            else u.lane.unitAddr
          groupAddr := if (byteAt b 0).testBit 1 then BitVec.ofNat 8 (byteAt b 2)
            else u.lane.groupAddr }).setTx { u.tx with
        holdover := if (byteAt b 0).testBit 2 then min (max (field b 3 2) 508) 516
          else u.tx.holdover }).setStore
        (if (byteAt b 0).testBit 3 then { u.store with
            lp := field b 5 2, currentPage := field b 5 2, boundaryPage := field b 5 2 }
          else u.store)).setReserve
        (if (byteAt b 0).testBit 4 then min (byteAt b 7) 8 else u.reserve) := by
  simp only [UnitEdit.apply, unitEdit, presentIf_map_getD]
  cases h : (byteAt b 0).testBit 3 with
  | false => simp only [presentIf, h, Bool.false_eq_true, if_false]; rfl
  | true => simp only [presentIf, h, if_true]; rfl

/-- Settles O41: the checks as one test and the applied settings field by field. -/
theorem unitSetAppliesTheSettings : Obligations.UnitSetAppliesTheSettings := by
  intro s src h body rest hready hcode hlen has ua ga hold lp k bad busy
  have run {r : Reply} {t : State} := answers_of_work (r := r) (t := t) (exec_unitSet s) hready
    hcode hlen
  have check := unitEdit_check_eq body (taken s rest)
  change _ = if bad = true then _ else if busy = true then _ else _ at check
  refine ⟨fun hb => run ?_, fun hb hy => run ?_, fun hb hy => run ?_⟩
  · rw [unitSet, check, if_pos hb]
    rfl
  · rw [unitSet, check, if_neg (by rw [hb]; simp), if_pos hy]
    rfl
  · rw [unitSet, check, if_neg (by rw [hb]; simp), if_neg (by rw [hy]; simp)]
    rw [unitEdit_clamped_eq, unitEdit_apply_eq]
    rfl

/-! ### DIR_WRITE (R35) and DIR_ERASE (R36) -/

theorem exec_dirWrite (s : State) :
    exec .dirWrite s = runRow (hasCode 0x21) false (sized 34 dirWrite) s := rfl

theorem exec_dirErase (s : State) :
    exec .dirErase s = runRow (hasCode 0x22) false (sized 2 dirErase) s := rfl

@[simp] theorem taken_entry (s : State) (rest : List Command) (n : Nat) :
    (taken s rest).entry n = s.entry n := rfl
@[simp] theorem taken_store (s : State) (rest : List Command) : (taken s rest).store = s.store := rfl

theorem entryBlocked_empty {e : DirEntry} (h : e.state = .empty) :
    entryBlocked e = some .notFound := by rw [entryBlocked, h]

theorem entryBlocked_ingest {e : DirEntry} (h : e.state = .armed ∨ e.state = .filling) :
    entryBlocked e = some .state := by rcases h with h | h <;> rw [entryBlocked, h]

theorem entryBlocked_held {e : DirEntry} (h : e.state = .ready) (hold : 0 < e.hold) :
    entryBlocked e = some .held := by simp only [entryBlocked, h, gt_iff_lt, hold, if_true]

theorem entryBlocked_free {e : DirEntry} (h : e.state = .ready) (hold : e.hold = 0) :
    entryBlocked e = none := by
  simp only [entryBlocked, h, hold, gt_iff_lt, Nat.lt_irrefl, if_false]

/-- An entry that is blocked refuses DIR_WRITE with its flag. -/
theorem dirWrite_blocked {b : List Byte} {f : ErrFlag} (hn : field b 0 2 ≤ 1023)
    (hf : entryBlocked (s.entry (field b 0 2)) = some f) : dirWrite b s = refuse f s := by
  simp only [dirWrite, gt_iff_lt, Nat.not_lt.2 hn, if_false, hf]

theorem dirWrite_refused {b : List Byte} (hn : field b 0 2 ≤ 1023)
    (hf : entryBlocked (s.entry (field b 0 2)) = none)
    (hd : dirEdit (s.entry (field b 0 2)) b = none) : dirWrite b s = refuse .badField s := by
  simp only [dirWrite, gt_iff_lt, Nat.not_lt.2 hn, if_false, hf, hd]

theorem dirWrite_edits {b : List Byte} {e : DirEntry} {clamped : Bool} (hn : field b 0 2 ≤ 1023)
    (hf : entryBlocked (s.entry (field b 0 2)) = none)
    (hd : dirEdit (s.entry (field b 0 2)) b = some (e, clamped)) :
    dirWrite b s = (.done clamped false [], s.setEntry (field b 0 2) e) := by
  simp only [dirWrite, gt_iff_lt, Nat.not_lt.2 hn, if_false, hf, hd]

/-- The loop points of a body, by its loop-present byte (R35). -/
theorem loopEdit_eq (length : Nat) (b : List Byte) :
    loopEdit length b =
      if byteAt b 5 = 0 then some none
      else if byteAt b 5 = 1 ∧ field b 6 4 + 32 ≤ field b 10 4 ∧ field b 10 4 ≤ length then
        some (some (field b 6 4, field b 10 4))
      else none := by
  unfold loopEdit flagOf
  split
  · next h => split at h <;> grind
  · next h => split at h <;> grind
  · next h => split at h <;> grind

theorem clampTrim_ne (t : Int) :
    (clampTrim t != t) = (decide (t < -1024) || decide (255 < t)) := by
  rw [Bool.eq_iff_iff]
  simp only [clampTrim, bne_iff_ne, Bool.or_eq_true, decide_eq_true_eq]
  omega

theorem dirWrite_editsTheEntry : Claim.dirWriteEditsTheEntry := by
  intro s src h body n rest hready hcode hlen hn hle u e has trim a z loopGiven
  have run {r : Reply} {t : State} := answers_of_work (r := r) (t := t) (exec_dirWrite s) hready
    hcode hlen
  subst hn
  refine ⟨fun he => run (dirWrite_blocked hle (entryBlocked_empty he)),
    fun he => run (dirWrite_blocked hle (entryBlocked_ingest he)),
    fun he hh => run (dirWrite_blocked hle (entryBlocked_held he hh)),
    fun he hh hflag hloop => run ?_, fun he hh hg hloop => run ?_⟩
  · refine dirWrite_edits hle (entryBlocked_free he hh) ?_
    have loop : (if has 1 then loopEdit e.length body else some e.loop) =
        some (if has 1 then (if byteAt body 5 = 1 then some (a, z) else none) else e.loop) := by
      cases h1 : has 1 with
      | false => simp
      | true =>
        have flag := hflag h1
        simp only [loopGiven, h1, Bool.true_and, decide_eq_true_eq] at hloop
        rw [if_pos rfl, if_pos rfl, loopEdit_eq]
        grind
    change Option.map _ (if has 1 then loopEdit e.length body else some e.loop) = _
    rw [loop, Option.map_some, clampTrim_ne]
    rfl
  · refine dirWrite_refused hle (entryBlocked_free he hh) ?_
    obtain ⟨h1, h5⟩ := Bool.and_eq_true_iff.1 hg
    have none : loopEdit e.length body = none := by
      rw [loopEdit_eq]
      grind
    change Option.map _ (if has 1 then loopEdit e.length body else some e.loop) = _
    rw [h1, if_pos rfl, none, Option.map_none]

theorem dirErase_blocked {n : Nat} {f : ErrFlag} {b : List Byte} (hb : field b 0 2 = n)
    (hn : n ≤ 1023) (hf : entryBlocked (s.entry n) = some f) : dirErase b s = refuse f s := by
  simp only [dirErase, hb, gt_iff_lt, Nat.not_lt.2 hn, if_false, hf]

theorem dirErase_library {n : Nat} {b : List Byte} (hb : field b 0 2 = n) (hn : n ≤ 1023)
    (hf : entryBlocked (s.entry n) = none) (hr : (s.entry n).region = .library) :
    dirErase b s = accept (emptyEntry n s) := by
  simp only [dirErase, hb, gt_iff_lt, Nat.not_lt.2 hn, if_false, hf, hr]

theorem dirErase_ring {n : Nat} {b : List Byte} (hb : field b 0 2 = n) (hn : n ≤ 1023)
    (hf : entryBlocked (s.entry n) = none) (hr : (s.entry n).region = .ring) :
    dirErase b s =
      if s.store.ringList.head? = some n then accept (retireOldest s) else refuse .state s := by
  simp only [dirErase, hb, gt_iff_lt, Nat.not_lt.2 hn, if_false, hf, hr]

/-- The oldest clip leaves the ring; the next one's first page is the boundary page (R21). -/
theorem retireOldest_cons {n m : Nat} {more : List Nat} (hl : s.store.ringList = n :: m :: more) :
    retireOldest s = (s.setStore { s.store with
      ringList := m :: more, boundaryPage := (s.entry m).firstPage }).setEntry n .blank := by
  simp only [retireOldest, hl, emptyEntry]

/-- With the last clip gone the current page is the boundary page (R21). -/
theorem retireOldest_single {n : Nat} (hl : s.store.ringList = [n]) :
    retireOldest s = (s.setStore { s.store with
      ringList := [], boundaryPage := s.store.currentPage }).setEntry n .blank := by
  simp only [retireOldest, hl, emptyEntry]

theorem dirErase_emptiesTheEntry : Claim.dirEraseEmptiesTheEntry := by
  intro s src h n rest hn hready hcode u e
  have hb : field (toBytes n 2) 0 2 = n := by
    rw [field_toBytes]
    exact Nat.mod_eq_of_lt (by omega)
  have run {r : Reply} {t : State} := answers_of_work (r := r) (t := t) (exec_dirErase s) hready
    hcode (toBytes_length n 2)
  refine ⟨fun he => run (dirErase_blocked hb hn (entryBlocked_empty he)),
    fun he => run (dirErase_blocked hb hn (entryBlocked_ingest he)),
    fun he hh => run (dirErase_blocked hb hn (entryBlocked_held he hh)),
    fun he hh hr => run (dirErase_library hb hn (entryBlocked_free he hh) hr),
    fun next more he hh hr hl => run ?_, fun he hh hr hl => run ?_, fun he hh hr hl => run ?_⟩
  all_goals rw [dirErase_ring (s := u) hb hn (entryBlocked_free he hh) hr]
  · rw [taken_store, if_pos (by rw [hl]; rfl), accept, retireOldest_cons (s := u) hl]
    rfl
  · rw [taken_store, if_pos (by rw [hl]; rfl), accept, retireOldest_single (s := u) hl]
    rfl
  · rw [taken_store, if_neg hl, refuse]

/-- Settles O51, command by command. -/
theorem dirWriteAndErase : Obligations.DirWriteAndErase :=
  ⟨dirWrite_editsTheEntry, dirErase_emptiesTheEntry⟩

/-! ### GPI_SET (R164) and GPO_SET (R165) -/

theorem exec_gpiSet (s : State) :
    exec .gpiSet s = runRow (hasCode 0x40) false (sized 7 gpiSet) s := rfl

theorem exec_gpoSet (s : State) :
    exec .gpoSet s = runRow (hasCode 0x41) false (sized 3 gpoSet) s := rfl

theorem gpiLineOf_val (g : Fin 8) : gpiLineOf g.val = some g := by
  simp only [gpiLineOf, g.isLt, dif_pos]

theorem gpiLineOf_of_le {n : Nat} (h : 8 ≤ n) : gpiLineOf n = none := dif_neg (by omega)

theorem contactCommands_setFunctions : Claim.contactCommandsSetFunctions := by
  constructor
  · intro s src h body rest hready hcode hlen u
    have run {r : Reply} {t : State} := answers_of_work (r := r) (t := t) (exec_gpiSet s) hready
      hcode hlen
    refine ⟨fun hl => run ?_, fun hl hne => run ?_, fun g hg => ⟨fun fn clamped hf => run ?_,
      fun hf => run ?_⟩⟩
    · simp only [gpiSet, hl, if_true]
      rfl
    · simp only [gpiSet, hne, if_false, gpiLineOf_of_le hl]
      rfl
    · have hne : g.val ≠ 255 := by omega
      simp only [gpiSet, hg, hne, if_false, gpiLineOf_val, hf]
      rfl
    · have hne : g.val ≠ 255 := by omega
      simp only [gpiSet, hg, hne, if_false, gpiLineOf_val, hf]
      rfl
  · intro s src h line fn channel rest hready hcode u
    have run {r : Reply} {t : State} := answers_of_work (r := r) (t := t) (exec_gpoSet s) hready
      hcode rfl
    have bytes : byteAt [line, fn, channel] 0 = line.toNat ∧ byteAt [line, fn, channel] 1 = fn.toNat
        ∧ byteAt [line, fn, channel] 2 = channel.toNat := ⟨rfl, rfl, rfl⟩
    obtain ⟨b0, b1, b2⟩ := bytes
    refine ⟨fun hl => run ?_, fun hl hne => run ?_, fun g hg => ⟨fun f hf => run ?_,
      fun hf => run ?_⟩⟩
    · subst hl
      rfl
    · have hne : line.toNat ≠ 255 := fun e => hne (BitVec.eq_of_toNat_eq e)
      simp only [gpoSet, b0, hne, if_false, channelOf_of_le hl]
      rfl
    · have hne : g.val ≠ 255 := by omega
      simp only [gpoSet, b0, b1, b2, hg, hne, if_false, channelOf_val, hf]
      rfl
    · have hne : g.val ≠ 255 := by omega
      simp only [gpoSet, b0, b1, b2, hg, hne, if_false, channelOf_val, hf]
      rfl

theorem clampCode_eq (x : Nat) : clampCode x = (min x 4095, decide (4095 < x)) := by
  simp only [clampCode, clampField, clampNat, Nat.max_zero, Config.maxCode, Prod.mk.injEq, true_and]
  rw [Bool.eq_iff_iff, bne_iff_ne, decide_eq_true_eq]
  omega

theorem contactFunctions_byCode : Claim.contactFunctionsByCode := by
  constructor
  · intro fn channel clip level
    refine ⟨rfl, fun c => ?_, fun bad => ?_⟩
    · simp only [gpiFunctionOf, channelOf_val, true_and, clampCode_eq]
      exact ⟨fun hc => if_neg (by omega), fun hc => if_pos hc⟩
    · rcases bad with hfn | ⟨hch, hfn⟩
      · unfold gpiFunctionOf
        split <;> first | rfl | omega
      · unfold gpiFunctionOf
        rw [channelOf_of_le (by omega)]
        split <;> first | rfl | omega | simp_all
  · intro fn channel
    refine ⟨rfl, rfl, rfl, fun c => ?_, fun bad => ?_⟩
    · simp only [gpoFunctionOf, channelOf_val, and_self]
    · rcases bad with hfn | ⟨hch, rfl | rfl⟩
      · unfold gpoFunctionOf
        split <;> first | rfl | omega
      · simp only [gpoFunctionOf, channelOf_of_le hch]
      · simp only [gpoFunctionOf, channelOf_of_le hch]

/-- Settles O59: the two commands, and the functions by their codes. -/
theorem contactCommandsSetFunctions : Obligations.ContactCommandsSetFunctions :=
  ⟨contactCommands_setFunctions, contactFunctions_byCode⟩

/-! ### BREAK_FIRE (R136) -/

theorem exec_breakFire (s : State) :
    exec .breakFire s = runRow (hasCode 0x33) false (sized 3 breakFire) s := rfl

theorem byteAt_channel (c : Fin 4) (l : List Byte) :
    byteAt (BitVec.ofNat 8 c.val :: l) 0 = c.val := by
  rw [byteAt_cons_zero, BitVec.toNat_ofNat]
  exact Nat.mod_eq_of_lt (by omega)

theorem field_afterByte (b : Byte) {n : Nat} (hn : n < 65536) (l : List Byte) :
    field (b :: (toBytes n 2 ++ l)) 1 2 = n := by
  have skip : field (b :: (toBytes n 2 ++ l)) 1 2 = field (toBytes n 2 ++ l) 0 2 := rfl
  rw [skip, field_append_left _ _ (by rw [toBytes_length]), field_toBytes]
  exact Nat.mod_eq_of_lt hn

section Fire
variable {c : Fin 4} {b : List Byte}

theorem breakFire_notFree (hc : byteAt b 0 = c.val) (hf : s.freeForBreak c = false) :
    breakFire b s = refuse .state s := by
  simp only [breakFire, hc, channelOf_val, hf, if_true]

theorem breakFire_noChoice {f : ErrFlag} (hc : byteAt b 0 = c.val) (hf : s.freeForBreak c = true)
    (hr : fireChoice c (field b 1 2) s = .error f) : breakFire b s = refuse f s := by
  simp only [breakFire, hc, channelOf_val, hf, hr, Bool.true_eq_false, if_false]

/-- What a fire request answers of the trigger it made. -/
def fireAnswer (c : Fin 4) (n : Nat) (t : State) : TriggerOutcome → Reply
  | .granted => .done false false (fireReply c n t)
  | .emptyPlan => .done false false (emptyFireReply n)
  | .refused => .refused .noVoice

theorem breakFire_chosen {r : BreakRecord} {o : TriggerOutcome} {t : State}
    (hc : byteAt b 0 = c.val) (hf : s.freeForBreak c = true)
    (hr : fireChoice c (field b 1 2) s = .ok r) (ho : fireRecord c r s = (o, t)) :
    breakFire b s = (fireAnswer c r.number t o, t) := by
  simp only [breakFire, hc, channelOf_val, hf, hr, ho, Bool.true_eq_false, if_false]
  cases o <;> rfl

theorem fireChoice_noFirst (hq : (s.ch c).queue.find? BreakRecord.firable = none) :
    fireChoice c 0 s = .error .notFound := by simp only [fireChoice, if_true, hq]

theorem fireChoice_first {r : BreakRecord}
    (hq : (s.ch c).queue.find? BreakRecord.firable = some r) : fireChoice c 0 s = .ok r := by
  simp only [fireChoice, if_true, hq]

theorem fireChoice_unknown {n : Nat} (hn : n ≠ 0) (hr : s.record c n = none) :
    fireChoice c n s = .error .notFound := by
  simp only [fireChoice, hn, if_false, hr]

theorem fireChoice_named {n : Nat} {r : BreakRecord} (hn : n ≠ 0) (hr : s.record c n = some r) :
    fireChoice c n s = if r.firable then .ok r else .error .state := by
  simp only [fireChoice, hn, if_false, hr]

theorem fireRecord_eq (c : Fin 4) (r : BreakRecord) (s : State) :
    fireRecord c r s = acceptTrigger c r.number (s.clock.ac + 64)
      (if r.window = 0 then none else some (s.clock.ac + 64 + BitVec.ofNat 32 r.window)) false s :=
  rfl

theorem fireReply_eq {n : Nat} {q : BreakRecord} {p : Plan} (hq : s.record c n = some q)
    (hp : q.plan = some p) :
    fireReply c n s = toBytes n 2 ++ acBytes q.start ++ acPresent q.deadline
      ++ toBytes p.ret.toNat 4 ++ toBytes p.placed.length 1 := by
  simp only [fireReply, hq, BreakRecord.ret, hp]
  rfl

end Fire

/-- Settles O57, by the checks in their order and then by what became of the trigger. -/
theorem breakFireStartsTheBreak : Obligations.BreakFireStartsTheBreak := by
  intro s src h c n rest hn hready hcode u firable
  have hc : byteAt ([BitVec.ofNat 8 c.val] ++ toBytes n 2) 0 = c.val := byteAt_channel c _
  have hnum : field ([BitVec.ofNat 8 c.val] ++ toBytes n 2) 1 2 = n := by
    simpa using field_afterByte (BitVec.ofNat 8 c.val) hn []
  have run {r : Reply} {t : State} := answers_of_work (r := r) (t := t) (exec_breakFire s) hready
    hcode (by simp [toBytes_length])
  refine ⟨fun hf => run ?_, fun hf h0 hq => run ?_, fun hf h0 hr => run ?_,
    fun r hf h0 hr hfire => run ?_, fun r hf hr => ?_⟩
  · exact breakFire_notFree (s := u) hc hf
  · exact breakFire_noChoice (s := u) hc hf (by rw [hnum, h0]; exact fireChoice_noFirst (s := u) hq)
  · exact breakFire_noChoice (s := u) hc hf (by rw [hnum]; exact fireChoice_unknown (s := u) h0 hr)
  · refine breakFire_noChoice (s := u) hc hf ?_
    rw [hnum, fireChoice_named (s := u) h0 hr]
    exact if_neg (by rw [show r.firable = false from hfire]; exact Bool.false_ne_true)
  · intro start d
    have choice : fireChoice c (field ([BitVec.ofNat 8 c.val] ++ toBytes n 2) 1 2) u = .ok r := by
      rw [hnum]
      obtain ⟨h0, hq⟩ | ⟨h0, hq, hfire⟩ := hr
      · rw [h0]
        exact fireChoice_first (s := u) hq
      · rw [fireChoice_named (s := u) h0 hq]
        exact if_pos hfire
    have fired : fireRecord c r u = (d.1, d.2) := fireRecord_eq c r u
    have work := breakFire_chosen (s := u) hc hf choice fired
    refine ⟨fun ho => run ?_, fun ho => ⟨toBytes 0 14, toBytes_length 0 14, run ?_⟩,
      fun q p ho hq hp => run ?_⟩
    · rw [work, ho]
      rfl
    · rw [work, ho]
      rfl
    · rw [work, ho, ← fireReply_eq hq hp]
      rfl

end Sys2Proof.Machine
end

section
/-! PROOFS. An ingress frame in LOCKED: the frame delivered, the held values and the packet in assembly. -/

namespace Sys2Proof.Machine

open Claim

variable {s : State}

/-! ### What stands before and behind the receiver -/

theorem takeAllRouted_of_nil (h : s.cmd.inbox = []) : takeAllRouted s = s := by
  have same : s.setCmd { s.cmd with inbox := [] } = s := by rw [← h]; rfl
  rw [takeAllRouted, h, List.foldl_nil, same]

theorem captureFrame_idle (f : TransitFrame) (h : s.store.engine = none) :
    captureFrame f s = s := by simp only [captureFrame, h]

theorem settleIngest_idle (h : s.store.engine = none) : settleIngest s = s := by
  simp only [settleIngest, h]

theorem discardIngest_idle (o : IngestOutcome) (h : s.store.engine = none) :
    discardIngest o s = s := by simp only [discardIngest, h]

/-- The row hands a frame to the receiver in LOCKED when nothing is due and nothing waits before it. -/
theorem exec_ingressFrame_locked (f : TrunkFrame) {n : Nat} (hn : n ≤ 2)
    (lock : s.rx.lock = .locked) (room : s.tx.transit.length < 3) (hs : s.settled = true)
    (inbox : s.cmd.inbox = []) : exec (.ingressFrame f n) s = .next (lockedFrame f n s) := by
  have taken : s.frameTaken = true := by simp [State.frameTaken, State.locked, lock, room]
  simp only [exec, execIngressFrame, hn, if_true, taken, settle_of_settled hs,
    takeAllRouted_of_nil inbox]

/-! ### The judgments (R1, R5) -/

theorem judgeFrame_good {rx : Receiver} {f : TrunkFrame} (h0 : f.sync0 = 0x9C)
    (h1 : f.sync1 = 0x63) (hc : checkHolds f = true) : judgeFrame rx f = .good := by
  rw [judgeFrame, if_pos ((isSync_iff ..).2 ⟨h0, h1⟩), if_pos hc]

theorem judgeFrame_checkFailed {rx : Receiver} {f : TrunkFrame} (h0 : f.sync0 = 0x9C)
    (h1 : f.sync1 = 0x63) (hc : checkHolds f = false) : judgeFrame rx f = .checkFailed := by
  rw [judgeFrame, if_pos ((isSync_iff ..).2 ⟨h0, h1⟩), hc, if_neg Bool.false_ne_true]

theorem judgeFrame_firstMiss {rx : Receiver} {f : TrunkFrame}
    (h : ¬(f.sync0 = 0x9C ∧ f.sync1 = 0x63)) (hm : rx.missRun = 0) :
    judgeFrame rx f = .firstMiss := by
  rw [judgeFrame, if_neg (fun hs => h ((isSync_iff ..).1 hs)), if_pos hm]

theorem judgeFrame_lockLost {rx : Receiver} {f : TrunkFrame}
    (h : ¬(f.sync0 = 0x9C ∧ f.sync1 = 0x63)) (hm : rx.missRun ≠ 0) :
    judgeFrame rx f = .lockLost := by
  rw [judgeFrame, if_neg (fun hs => h ((isSync_iff ..).1 hs)), if_neg hm]

/-! ### A frame at an idle ingest, by its judgment -/

/-- The receiver's part of a frame, and the frame in transit. -/
def received (f : TrunkFrame) (n : Nat) (j : FrameJudgment) (s : State) : State :=
  (s.setRx (s.rx.judged f j)).joinTransit
    ⟨s.carryingAC n, if j == .good then f.slots else s.rx.held, j == .good⟩

theorem breakPacket_eq (s : State) : breakPacket s = packetBroken s.lane.assembly s := by
  unfold breakPacket packetBroken
  cases s.lane.assembly <;> rfl

theorem lockedFrame_of_good {f : TrunkFrame} (n : Nat) (h : s.store.engine = none)
    (hj : judgeFrame s.rx f = .good) :
    lockedFrame f n s = laneFrame (s.carryingAC n) f.aux (received f n .good s) := by
  unfold lockedFrame
  dsimp only
  rw [hj, deliverFrame_eq, captureFrame_idle _ (by exact h)]
  rfl

theorem lockedFrame_of_failed {f : TrunkFrame} (n : Nat) {j : FrameJudgment}
    (h : s.store.engine = none) (hj : judgeFrame s.rx f = j) (hf : (j == .good) = false) :
    lockedFrame f n s = reportJudgment j (packetBroken s.lane.assembly (received f n j s)) := by
  unfold lockedFrame
  dsimp only
  rw [hj, deliverFrame_eq, captureFrame_idle _ (by exact h), hf, if_neg Bool.false_ne_true,
    if_neg Bool.false_ne_true, breakPacket_eq]
  unfold received
  rw [hf, if_neg Bool.false_ne_true]
  rfl

theorem enterHoldover_raiseAlert_idle (h : s.store.engine = none) :
    (enterHoldover (raiseAlert .lock s)).store.engine = none := by
  rw [raiseAlert_eq]
  exact h

theorem reportJudgment_lockLost (h : s.store.engine = none) :
    reportJudgment .lockLost s = enterHoldover (raiseAlert .lock s) := by
  have idle := enterHoldover_raiseAlert_idle h
  simp only [reportJudgment, settleIngest_idle idle, discardIngest_idle _ idle]

theorem packetBroken_engine (a : LaneState) (s : State) :
    (packetBroken a s).store.engine = s.store.engine := by
  unfold packetBroken
  cases a with
  | idle => rfl
  | header bytes => rfl
  | body b =>
    dsimp only
    split <;> rfl

theorem packetBroken_mode (a : LaneState) (s : State) :
    (packetBroken a s).tx.awaitFirst = s.tx.awaitFirst ∧ (packetBroken a s).tx.mode = s.tx.mode := by
  unfold packetBroken
  cases a with
  | idle => exact ⟨rfl, rfl⟩
  | header bytes => exact ⟨rfl, rfl⟩
  | body b =>
    dsimp only
    split <;> exact ⟨rfl, rfl⟩

theorem enterHoldover_raiseAlert (src : AlertSource) (s : State) :
    enterHoldover (raiseAlert src s) = (raiseAlert src s).setTx { s.tx with
      mode := .holdover, transit := []
      awaitFirst := s.tx.awaitFirst || s.tx.mode == .follow } := by
  rw [raiseAlert_eq]
  rfl

theorem raiseAlert_setTx (src : AlertSource) (s : State) (x : Egress) :
    raiseAlert src (s.setTx x) = (raiseAlert src s).setTx x := by
  have snapshot : (s.setTx x).snapshot = s.snapshot := rfl
  unfold raiseAlert
  dsimp only
  repeat' split
  all_goals first | rfl | contradiction

/-! ### The rows -/

theorem goodFrame_bringsItsBytes : goodFrameBringsItsBytes := by
  intro f n s ⟨lock, room, hs, inbox, idle⟩ hn h0 h1 hc
  rw [exec_ingressFrame_locked f hn lock room hs inbox, lockedFrame_of_good n idle (judgeFrame_good h0 h1 hc)]
  rfl

theorem laneByte_idle_zero (ref : AC) (h : s.lane.assembly = .idle) : laneByte ref s 0 = s := by
  simp only [laneByte, h, if_true]

/-- An aux field of idle bytes leaves an IDLE lane parser as it is. -/
theorem foldl_laneByte_zeros (ref : AC) (k : Nat) (h : s.lane.assembly = .idle) :
    (List.replicate k 0).foldl (laneByte ref) s = s := by
  induction k with
  | zero => rfl
  | succ k ih => rw [List.replicate_succ, List.foldl_cons, laneByte_idle_zero ref h, ih]

/-- Settles O12: a good frame brings four idle bytes, which leave an idle lane parser as it is. -/
theorem goodFrameIsDelivered : Obligations.GoodFrameIsDelivered := by
  intro f n s ⟨lock, room, hs, inbox, lane, idle⟩ hn h0 h1 hc haux
  have zeros : f.aux.toList = List.replicate 4 0 := by rw [haux]; rfl
  rw [goodFrame_bringsItsBytes f n s ⟨lock, room, hs, inbox, idle⟩ hn h0 h1 hc, zeros,
    foldl_laneByte_zeros _ 4 (by exact lane)]

theorem failedFrame_breaksThePacket : failedFrameBreaksThePacket := by
  intro f n s ⟨lock, room, hs, inbox, idle⟩ hn
  have row := exec_ingressFrame_locked f hn lock room hs inbox
  refine ⟨fun h0 h1 hc => ?_, fun h hm => ?_, fun h hm => ?_⟩
  · rw [row, lockedFrame_of_failed n idle (judgeFrame_checkFailed h0 h1 hc) rfl]
    rfl
  · rw [row, lockedFrame_of_failed n idle (judgeFrame_firstMiss h hm) rfl]
    rfl
  · obtain ⟨await, mode⟩ := packetBroken_mode s.lane.assembly (received f n .lockLost s)
    rw [row, lockedFrame_of_failed n idle (judgeFrame_lockLost h hm) rfl,
      reportJudgment_lockLost (by rw [packetBroken_engine]; exact idle),
      enterHoldover_raiseAlert, await, mode]
    rfl

theorem failedFrame_carriesHeldValues : failedFrameCarriesHeldValues := by
  intro f n s ⟨lock, room, hs, inbox, lane, idle⟩ hn
  obtain ⟨failed, missed, -⟩ :=
    failedFrame_breaksThePacket f n s ⟨lock, room, hs, inbox, idle⟩ hn
  rw [lane] at failed missed
  exact ⟨failed, missed⟩

/-- Settles O13: an IDLE lane parser has no packet to break. -/
theorem failedFramesCarryHeldValues : Obligations.FailedFramesCarryHeldValues :=
  ⟨failedFrame_carriesHeldValues, failedFrame_breaksThePacket⟩

/-- Settles O14, by the frame that ends the lock at an IDLE lane parser. -/
theorem secondMissEndsTheLock : Obligations.SecondMissEndsTheLock := by
  intro f n s ⟨lock, room, hs, inbox, lane, idle⟩ hn h hm
  obtain ⟨-, -, lost⟩ := failedFrame_breaksThePacket f n s ⟨lock, room, hs, inbox, idle⟩ hn
  rw [lost h hm, lane]
  dsimp only [packetBroken]
  rw [raiseAlert_setTx]
  rfl

end Sys2Proof.Machine
end

section
/-! PROOFS. The aux lane: a whole packet through the lane parser (R11 to R15). -/

namespace Sys2Proof.Machine

open Claim

variable {s : State}

/-! ### Bytes offered to the FIFO -/

/-- The bytes of a packet joined to the FIFO, when it is cut through. -/
def pushed (through : Bool) (l : List Byte) (s : State) : State :=
  if through then fifoAppend (l.map FifoItem.byte) s else s

/-- The FIFO takes n more bytes of the packet, when it is cut through. -/
def roomFor (through : Bool) (n : Nat) (s : State) : Prop :=
  through = true → fifoDepth s.tx.fifo + n ≤ 512

theorem pushBody_of_room (x : Byte) {b : LaneBody} (h : roomFor b.pushing 1 s) :
    pushBody b x s = (b, pushed b.pushing [x] s) := by
  unfold pushBody pushed
  by_cases hp : b.pushing = true
  · have room : fifoDepth s.tx.fifo < Config.fifoBytes := h hp
    rw [if_pos hp, if_pos room, if_pos hp]
    rfl
  · rw [if_neg hp, if_neg hp]

theorem fifoAppend_fifoAppend (l l' : List FifoItem) (s : State) :
    fifoAppend l' (fifoAppend l s) = fifoAppend (l ++ l') s := by
  rw [fifoAppend, fifoAppend, fifoAppend, ← List.append_assoc]
  rfl

theorem fifoAppend_nil (s : State) : fifoAppend [] s = s := by
  rw [fifoAppend, List.append_nil]
  rfl

theorem pushed_nil (through : Bool) (s : State) : pushed through [] s = s := by
  unfold pushed
  split
  · exact fifoAppend_nil s
  · rfl

theorem pushed_setAssembly (through : Bool) (l : List Byte) (a : LaneState) (s : State) :
    pushed through l (setAssembly a s) = setAssembly a (pushed through l s) := by
  unfold pushed
  split <;> rfl

theorem pushed_pushed (through : Bool) (l l' : List Byte) (s : State) :
    pushed through l' (pushed through l s) = pushed through (l ++ l') s := by
  unfold pushed
  split
  · rw [fifoAppend_fifoAppend, List.map_append]
  · rfl

theorem fifoDepth_bytes (l : List Byte) : fifoDepth (l.map FifoItem.byte) = l.length := by
  induction l with
  | nil => rfl
  | cons x l ih => rw [List.map_cons, fifoDepth_byte, ih, List.length_cons]

theorem roomFor.mono {through : Bool} {m n : Nat} (h : roomFor through n s) (hmn : m ≤ n) :
    roomFor through m s := fun hp => (Nat.add_le_add_left hmn _).trans (h hp)

theorem roomFor.setAssembly {through : Bool} {n : Nat} (h : roomFor through n s) (a : LaneState) :
    roomFor through n (setAssembly a s) := h

theorem roomFor.pushed {through : Bool} {l : List Byte} {n : Nat}
    (h : roomFor through (l.length + n) s) : roomFor through n (pushed through l s) := by
  intro hp
  have room := h hp
  rw [Machine.pushed, if_pos hp]
  change fifoDepth (s.tx.fifo ++ l.map FifoItem.byte) + n ≤ 512
  rw [fifoDepth_append, fifoDepth_bytes]
  omega

theorem setAssembly_setAssembly (a b : LaneState) (s : State) :
    setAssembly a (setAssembly b s) = setAssembly a s := rfl

theorem setAssembly_self (h : s.lane.assembly = .idle) : setAssembly .idle s = s := by
  rw [setAssembly, ← h]
  rfl

/-! ### The bytes of a packet in order -/

/-- Bytes offered to the lane parser, each with its reference frame. -/
def laneBytes (l : List (Byte × AC)) (s : State) : State :=
  l.foldl (fun t q => laneByte q.2 t q.1) s

theorem laneBytes_append (l l' : List (Byte × AC)) (s : State) :
    laneBytes (l ++ l') s = laneBytes l' (laneBytes l s) := List.foldl_append

/-- A packet in BODY after more payload bytes. -/
def LaneBody.after (b : LaneBody) (l : List Byte) : LaneBody := { b with
  payload := b.payload ++ l
  sumA := (l.foldl checkStep (b.sumA, b.sumB)).1
  sumB := (l.foldl checkStep (b.sumA, b.sumB)).2 }

theorem LaneBody.after_nil (b : LaneBody) : b.after [] = b := by
  rw [LaneBody.after, List.append_nil]
  rfl

theorem LaneBody.after_after (b : LaneBody) (l l' : List Byte) :
    (b.after l).after l' = b.after (l ++ l') := by
  simp only [LaneBody.after, List.append_assoc, List.foldl_append]

/-- The header's packet in BODY (R12). -/
def headerBody (kind dest src len : Byte) (s : State) : LaneBody :=
  let d := addressDecision s.lane.unitAddr s.lane.groupAddr dest
  { kind := kind, dest := dest, src := src, len := len.toNat, take := d ≠ .pass,
    consumed := d = .consume, pushing := d ≠ .consume, payload := []
    sumA := (checkSums [kind, dest, src, len]).1, sumB := (checkSums [kind, dest, src, len]).2
    checkA := none }

theorem beginBody_of_room {kind dest src len : Byte} (a : LaneState)
    (h : roomFor (headerBody kind dest src len s).pushing 5 s) :
    beginBody kind dest src len (setAssembly a s) =
      setAssembly (.body (headerBody kind dest src len s))
        (pushed (headerBody kind dest src len s).pushing [0xC3, kind, dest, src, len] s) := by
  unfold beginBody pushed
  dsimp only
  by_cases hd : addressDecision s.lane.unitAddr s.lane.groupAddr dest = .consume
  · have off : (headerBody kind dest src len s).pushing = false := by simp [headerBody, hd]
    rw [if_pos (by exact hd), off, if_neg Bool.false_ne_true]
    rfl
  · have on : (headerBody kind dest src len s).pushing = true := by simp [headerBody, hd]
    rw [if_neg (by exact hd), if_pos (by exact h on), if_pos on]
    rfl

theorem laneBytes_header {kind dest src len : Byte} (r0 r1 r2 r3 r4 : AC)
    (hi : s.lane.assembly = .idle) (hl : len.toNat ≤ 200)
    (h : roomFor (headerBody kind dest src len s).pushing 5 s) :
    laneBytes [(0xC3, r0), (kind, r1), (dest, r2), (src, r3), (len, r4)] s =
      setAssembly (.body (headerBody kind dest src len s))
        (pushed (headerBody kind dest src len s).pushing [0xC3, kind, dest, src, len] s) := by
  have sync : laneByte r0 s 0xC3 = setAssembly (.header [0xC3]) s := by
    simp [laneByte, hi]
  have one (r : AC) (x y : Byte) (t : State) :
      laneByte r (setAssembly (.header [x]) t) y = setAssembly (.header [x, y]) t := rfl
  have two (r : AC) (x y z : Byte) (t : State) :
      laneByte r (setAssembly (.header [x, y]) t) z = setAssembly (.header [x, y, z]) t := rfl
  have three (r : AC) (x y z w : Byte) (t : State) :
      laneByte r (setAssembly (.header [x, y, z]) t) w = setAssembly (.header [x, y, z, w]) t := rfl
  have last : laneByte r4 (setAssembly (.header [0xC3, kind, dest, src]) s) len =
      beginBody kind dest src len (setAssembly (.header [0xC3, kind, dest, src]) s) :=
    if_neg (by omega)
  simp only [laneBytes, List.foldl_cons, List.foldl_nil, sync, one, two, three, last,
    beginBody_of_room _ h]

/-- A payload byte. -/
theorem bodyByte_payload (x : Byte) (ref : AC) {b : LaneBody} (hl : b.payload.length < b.len)
    (h : roomFor b.pushing 1 s) :
    bodyByte b x ref s = setAssembly (.body (b.after [x])) (pushed b.pushing [x] s) := by
  rw [bodyByte, pushBody_of_room x h, if_pos hl]
  rfl

theorem laneBytes_payload {b : LaneBody} (l : List (Byte × AC)) :
    b.payload.length + l.length ≤ b.len → roomFor b.pushing l.length s →
    laneBytes l (setAssembly (.body b) s) =
      setAssembly (.body (b.after (l.map Prod.fst))) (pushed b.pushing (l.map Prod.fst) s) := by
  induction l generalizing b s with
  | nil =>
    intro _ _
    rw [List.map_nil, pushed_nil, LaneBody.after_nil]
    rfl
  | cons q l ih =>
    intro hl h
    rw [List.length_cons] at hl h
    have first : laneByte q.2 (setAssembly (.body b) s) q.1 =
        setAssembly (.body (b.after [q.1])) (pushed b.pushing [q.1] s) := by
      refine (bodyByte_payload q.1 q.2 (by omega) ((h.mono (by omega)).setAssembly _)).trans ?_
      rw [pushed_setAssembly, setAssembly_setAssembly]
    have length : (b.after [q.1]).payload.length = b.payload.length + 1 := List.length_append
    have len : (b.after [q.1]).len = b.len := rfl
    have rest := ih (b := b.after [q.1]) (s := pushed b.pushing [q.1] s) (by omega)
      (roomFor.pushed (h.mono (by simp; omega)))
    rw [laneBytes, List.foldl_cons, first]
    refine rest.trans ?_
    rw [LaneBody.after_after, List.map_cons, List.singleton_append]
    exact congrArg _ (pushed_pushed ..)

/-- The two check bytes end the packet (R13). -/
theorem laneBytes_checks {b : LaneBody} (x y : Byte) (r r' : AC) (hl : b.payload.length = b.len)
    (hc : b.checkA = none) (h : roomFor b.pushing 2 s) :
    laneBytes [(x, r), (y, r')] (setAssembly (.body b) s) =
      completePacket { b with checkA := some x } x y r'
        (setAssembly .idle (pushed b.pushing [x, y] s)) := by
  have full : ¬b.payload.length < b.len := by omega
  have first : laneByte r (setAssembly (.body b) s) x =
      setAssembly (.body { b with checkA := some x }) (pushed b.pushing [x] s) := by
    refine (?_ : bodyByte b x r (setAssembly (.body b) s) = _)
    rw [bodyByte, pushBody_of_room x ((h.mono (by omega)).setAssembly _), if_neg full, hc,
      pushed_setAssembly]
    rfl
  have room : roomFor b.pushing 1 (pushed b.pushing [x] s) := roomFor.pushed (h.mono (by simp))
  have second (t : State) (ht : roomFor b.pushing 1 t) :
      bodyByte { b with checkA := some x } y r' t =
        completePacket { b with checkA := some x } x y r' (setAssembly .idle (pushed b.pushing [y] t)) := by
    rw [bodyByte, pushBody_of_room y (by exact ht), if_neg (by exact full)]
  rw [laneBytes, List.foldl_cons, first, List.foldl_cons, List.foldl_nil]
  refine (second _ (room.setAssembly _)).trans ?_
  rw [pushed_setAssembly, setAssembly_setAssembly, pushed_pushed]
  rfl

/-! ### A whole packet -/

/-- The packet as it stands in BODY with its payload arrived. -/
def packetBody (p : Packet) (s : State) : LaneBody :=
  (headerBody p.kind p.dest p.src (BitVec.ofNat 8 p.payload.length) s).after p.payload

theorem checkSums_lt (l : List Byte) : (checkSums l).1 < 255 ∧ (checkSums l).2 < 255 := by
  have start : (0, 0).1 < 255 ∧ (0, 0).2 < 255 := ⟨Nat.zero_lt_succ _, Nat.zero_lt_succ _⟩
  exact List.foldlRecOn (motive := fun ab : Nat × Nat => ab.1 < 255 ∧ ab.2 < 255) l checkStep start
    fun ab _ x _ => ⟨Nat.mod_lt _ (by decide), Nat.mod_lt _ (by decide)⟩

theorem packetBody_sums (p : Packet) (s : State) :
    ((packetBody p s).sumA, (packetBody p s).sumB) =
      checkSums ([p.kind, p.dest, p.src, BitVec.ofNat 8 p.payload.length] ++ p.payload) := by
  rw [checkSums, List.foldl_append]
  rfl

theorem packetBytes_eq (p : Packet) (s : State) : packetBytes p =
    [0xC3, p.kind, p.dest, p.src, BitVec.ofNat 8 p.payload.length] ++ (p.payload ++
      [BitVec.ofNat 8 (packetBody p s).sumA, BitVec.ofNat 8 (packetBody p s).sumB]) := by
  unfold packetBytes
  dsimp only
  rw [← packetBody_sums p s, List.append_assoc, List.append_assoc]
  rfl

theorem map_fst_eq_cons {x : Byte} {xs : List Byte} {l : List (Byte × AC)}
    (h : l.map Prod.fst = x :: xs) : ∃ ref t, l = (x, ref) :: t ∧ t.map Prod.fst = xs := by
  cases l with
  | nil => cases h
  | cons q t =>
    obtain ⟨rfl, ht⟩ := List.cons.inj h
    exact ⟨q.2, t, rfl, ht⟩

/-- A whole packet at an IDLE lane parser: its bytes are cut through, and it completes with its last
byte's reference frame. -/
theorem laneBytes_packet {p : Packet} {l : List (Byte × AC)} {q : Byte × AC}
    (hi : s.lane.assembly = .idle) (hp : p.payload.length ≤ 200)
    (hl : l.map Prod.fst = packetBytes p) (hq : l.getLast? = some q)
    (h : roomFor (packetBody p s).pushing (p.payload.length + 7) s) :
    laneBytes l s = completePacket { packetBody p s with
        checkA := some (BitVec.ofNat 8 (packetBody p s).sumA) }
      (BitVec.ofNat 8 (packetBody p s).sumA) (BitVec.ofNat 8 (packetBody p s).sumB) q.2
      (pushed (packetBody p s).pushing (packetBytes p) s) := by
  rw [packetBytes_eq p s] at hl ⊢
  generalize ha : BitVec.ofNat 8 (packetBody p s).sumA = a at hl ⊢
  generalize hb : BitVec.ofNat 8 (packetBody p s).sumB = b at hl ⊢
  obtain ⟨header, tail, rfl, hheader, htail⟩ := List.map_eq_append_iff.1 hl
  obtain ⟨payload, checks, rfl, hpayload, hchecks⟩ := List.map_eq_append_iff.1 htail
  obtain ⟨r0, _, rfl, h0⟩ := map_fst_eq_cons hheader
  obtain ⟨r1, _, rfl, h1⟩ := map_fst_eq_cons h0
  obtain ⟨r2, _, rfl, h2⟩ := map_fst_eq_cons h1
  obtain ⟨r3, _, rfl, h3⟩ := map_fst_eq_cons h2
  obtain ⟨r4, _, rfl, h4⟩ := map_fst_eq_cons h3
  obtain rfl := List.map_eq_nil_iff.1 h4
  obtain ⟨r5, _, rfl, h5⟩ := map_fst_eq_cons hchecks
  obtain ⟨r6, _, rfl, h6⟩ := map_fst_eq_cons h5
  obtain rfl := List.map_eq_nil_iff.1 h6
  have last : q = (b, r6) := by
    rw [← List.append_assoc, ← List.singleton_append (l := [(b, r6)]), ← List.append_assoc,
      List.getLast?_concat] at hq
    exact (Option.some.inj hq).symm
  have len : (BitVec.ofNat 8 p.payload.length).toNat = p.payload.length := by
    rw [BitVec.toNat_ofNat]
    omega
  have count : payload.length = p.payload.length := by rw [← hpayload, List.length_map]
  have header := laneBytes_header (s := s) (kind := p.kind) (dest := p.dest) (src := p.src)
    r0 r1 r2 r3 r4 hi (len.trans_le hp) (h.mono (by omega))
  have arrived : (packetBody p s).payload.length = (packetBody p s).len := len.symm
  have body := laneBytes_payload (s := pushed (packetBody p s).pushing
    [0xC3, p.kind, p.dest, p.src, BitVec.ofNat 8 p.payload.length] s)
    (b := headerBody p.kind p.dest p.src (BitVec.ofNat 8 p.payload.length) s) payload
    ((Nat.zero_add _).trans_le (count.trans len.symm).le)
    (roomFor.pushed (h.mono (by simp only [List.length_cons, List.length_nil]; omega)))
  have checks := laneBytes_checks (s := pushed (packetBody p s).pushing
    ([0xC3, p.kind, p.dest, p.src, BitVec.ofNat 8 p.payload.length] ++ p.payload) s)
    (b := packetBody p s) a b r5 r6 arrived rfl
    (roomFor.pushed (h.mono (by
      simp only [List.length_append, List.length_cons, List.length_nil]; omega)))
  have idle : setAssembly .idle (pushed (packetBody p s).pushing
      (([0xC3, p.kind, p.dest, p.src, BitVec.ofNat 8 p.payload.length] ++ p.payload) ++ [a, b]) s) =
      pushed (packetBody p s).pushing
        (([0xC3, p.kind, p.dest, p.src, BitVec.ofNat 8 p.payload.length] ++ p.payload) ++ [a, b]) s := by
    rw [← pushed_setAssembly, setAssembly_self hi]
  rw [laneBytes_append, laneBytes_append, header]
  refine (congrArg _ body).trans ?_
  rw [hpayload]
  refine ((congrArg (fun t => laneBytes _ (setAssembly _ t)) (pushed_pushed ..)).trans checks).trans ?_
  rw [pushed_pushed, idle, last, List.append_assoc]

theorem routePacket_to {b : LaneBody} {r : Route} (ref : AC) (s : State)
    (h : b.kind = 0x10 ∧ r = .cue ∨ b.kind = 0x20 ∧ r = .command ∨ b.kind = 0x21 ∧ r = .commandMore) :
    routePacket b ref s = routeTo r b ref s := by
  obtain ⟨hk, rfl⟩ | ⟨hk, rfl⟩ | ⟨hk, rfl⟩ := h
  all_goals simp [routePacket, hk]

theorem packetForTheUnit_isRouted : packetForTheUnitIsRouted := by
  intro s refs last p r hi hdest low high hp hkind hrefs hlast
  have consume : addressDecision s.lane.unitAddr s.lane.groupAddr p.dest = .consume :=
    if_pos ⟨hdest, low, high⟩
  have through : (packetBody p s).pushing = false := by
    simp [packetBody, LaneBody.after, headerBody, consume]
  have takes : (packetBody p s).take = true := by
    simp [packetBody, LaneBody.after, headerBody, consume]
  have fst : ((packetBytes p).zip refs).map Prod.fst = packetBytes p :=
    List.map_fst_zip hrefs.ge
  obtain ⟨q, hq, hq2⟩ : ∃ q, ((packetBytes p).zip refs).getLast? = some q ∧ q.2 = last := by
    have snd : ((packetBytes p).zip refs).map Prod.snd = refs := List.map_snd_zip hrefs.le
    rw [← snd, List.getLast?_map, Option.map_eq_some_iff] at hlast
    exact hlast
  have sums := checkSums_lt ([p.kind, p.dest, p.src, BitVec.ofNat 8 p.payload.length] ++ p.payload)
  rw [← packetBody_sums p s] at sums
  refine (laneBytes_packet hi hp fst hq (fun on => absurd on (by simp [through]))).trans ?_
  rw [through, pushed, if_neg Bool.false_ne_true, completePacket, if_pos (by exact takes), if_pos
    ⟨by rw [BitVec.toNat_ofNat]; exact Nat.mod_eq_of_lt (by omega),
      by rw [BitVec.toNat_ofNat]; exact Nat.mod_eq_of_lt (by omega)⟩, hq2]
  exact routePacket_to last s hkind

/-- Settles O8: a whole packet through the lane parser, and the four bytes of a good frame. -/
theorem packetForTheUnitIsRouted : Obligations.PacketForTheUnitIsRouted :=
  ⟨packetForTheUnit_isRouted, goodFrame_bringsItsBytes⟩

theorem passedPacket_entersTheFifoWhole : passedPacketEntersTheFifoWhole := by
  intro s ref p hi hd hp room
  have through : (packetBody p s).pushing = true := by
    simp [packetBody, LaneBody.after, headerBody, hd]
  have takes : (packetBody p s).take = false := by
    simp [packetBody, LaneBody.after, headerBody, hd]
  have fst : ((packetBytes p).map fun x => (x, ref)).map Prod.fst = packetBytes p := by
    rw [List.map_map]
    exact List.map_id _
  have some_last : ((packetBytes p).map fun x => (x, ref)) ≠ [] := by simp [packetBytes]
  have whole := laneBytes_packet hi hp fst (List.getLast?_eq_some_getLast some_last)
    (fun _ => by omega)
  rw [laneBytes, List.foldl_map] at whole
  refine whole.trans ?_
  rw [completePacket, takes, if_neg Bool.false_ne_true, pushed, if_pos through]
  rfl

/-! ### The merger between packets and in one (R16) -/

/-- The bytes sent, one position after the other. -/
theorem sendBytes_succ {n : Nat} {x : Byte} {l : List Byte} {t u : State}
    (first : mergerByte s = (x, u)) (more : sendBytes n u = (l, t)) :
    sendBytes (n + 1) s = (x :: l, t) := by
  simp only [sendBytes, first, more]

/-- The state with this pass-through FIFO and this send state of the merger. -/
def sending (fifo : List FifoItem) (m : Merger) (s : State) : State :=
  s.setTx { s.tx with fifo := fifo, merger := m }

theorem passNext_more {sent len a b : Nat} {x : Byte}
    (h : sent + 1 < 7 + if sent = 4 then x.toNat else len) : ∃ a' b', passNext sent len a b x =
      .sendPass (sent + 1) (if sent = 4 then x.toNat else len) a' b' := ⟨_, _, if_pos h⟩

theorem passNext_last {sent len a b : Nat} {x : Byte}
    (h : ¬sent + 1 < 7 + if sent = 4 then x.toNat else len) : passNext sent len a b x = .between :=
  if_neg h

/-- The next byte of a pass-through packet in progress. -/
theorem mergerByte_sendPass {sent len a b : Nat} {x : Byte} {rest : List FifoItem} :
    mergerByte (sending (.byte x :: rest) (.sendPass sent len a b) s) =
      (x, sending rest (passNext sent len a b x) s) := rfl

/-- The merger sends the bytes left of a packet: N payload bytes in all, with LEN still to come up to
byte 4. -/
theorem sendBytes_pass {N : Nat} {rest : List FifoItem} (l : List Byte) :
    ∀ {sent len a b : Nat}, l ≠ [] → sent + l.length = 7 + N →
    (sent ≤ 4 → len = 0 ∧ (l[4 - sent]?).map BitVec.toNat = some N) → (4 < sent → len = N) →
    sendBytes l.length (sending (l.map FifoItem.byte ++ rest) (.sendPass sent len a b) s) =
      (l, sending rest .between s) := by
  induction l with
  | nil => intro _ _ _ _ h; exact absurd rfl h
  | cons x l ih =>
    intro sent len a b _ hl hearly hlate
    have hlen : (if sent = 4 then x.toNat else len) = if sent < 4 then 0 else N := by
      obtain early | rfl | late := Nat.lt_trichotomy sent 4
      · rw [if_neg (by omega), if_pos early, (hearly early.le).1]
      · rw [if_pos rfl, if_neg (by omega)]
        exact Option.some.inj (hearly le_rfl).2
      · rw [if_neg (by omega), if_neg (by omega), hlate late]
    rw [List.length_cons] at hl
    refine sendBytes_succ mergerByte_sendPass ?_
    by_cases hn : l = []
    · subst hn
      rw [List.length_nil] at hl
      have done : ¬sent + 1 < 7 + if sent = 4 then x.toNat else len := by
        rw [hlen, if_neg (by omega)]
        omega
      rw [passNext_last done]
      rfl
    · have left : 0 < l.length := List.length_pos_of_ne_nil hn
      have more : sent + 1 < 7 + if sent = 4 then x.toNat else len := by
        rw [hlen]
        split <;> omega
      obtain ⟨a', b', next⟩ := passNext_more (a := a) (b := b) more
      rw [next, hlen]
      refine ih hn (by omega) (fun early => ⟨if_pos (by omega), ?_⟩) (fun late => if_neg (by omega))
      have known := (hearly (by omega)).2
      rwa [show 4 - sent = 4 - (sent + 1) + 1 by omega, List.getElem?_cons_succ] at known

theorem betweenByte_pass {x : Byte} {rest : List FifoItem} (ha : s.alert.ready = none)
    (hr : s.cmd.replies = []) (hf : s.tx.fifo = .byte x :: rest) :
    betweenByte s = (x, sending rest (passNext 0 0 0 0 x) s) := by
  have start : startPass s = (x, sending rest (passNext 0 0 0 0 x) s) := by
    simp only [startPass, hf, sending]
  unfold betweenByte
  split
  · simp only [ha, hr, start]
  · exact start

theorem packetBytes_length (p : Packet) : (packetBytes p).length = p.payload.length + 7 := by
  simp [packetBytes]

/-- A packet's bytes: the sync byte, and the rest with LEN. -/
theorem packetBytes_cons (p : Packet) : ∃ tail, packetBytes p = 0xC3 :: tail
    ∧ tail.length = p.payload.length + 6
    ∧ tail[3]? = some (BitVec.ofNat 8 p.payload.length) := by
  refine ⟨_, rfl, ?_, rfl⟩
  simp

theorem mergerSends_aPassedPacket : mergerSendsAPassedPacketWhole := by
  intro s p rest hm ha hr hp hf
  obtain ⟨tail, htail, length, hlen⟩ := packetBytes_cons p
  rw [htail] at hf ⊢
  have first : mergerByte s =
      (0xC3, sending (tail.map FifoItem.byte ++ rest) (.sendPass 1 0 0 0) s) := by
    simp only [mergerByte, hm]
    exact betweenByte_pass ha hr hf
  rw [show p.payload.length + 7 = tail.length + 1 by omega]
  refine (sendBytes_succ first (sendBytes_pass tail (N := p.payload.length)
    (List.ne_nil_of_length_pos (by omega)) (by omega) (fun _ => ⟨rfl, ?_⟩)
    (fun late => absurd late (by decide)))).trans ?_
  · rw [hlen, Option.map_some, BitVec.toNat_ofNat, Nat.mod_eq_of_lt (by omega)]
  · rw [sending, ← hm]

/-- Settles O9: a whole packet into the FIFO, and out of it. -/
theorem passedPacketsGoThroughWhole : Obligations.PassedPacketsGoThroughWhole :=
  ⟨passedPacket_entersTheFifoWhole, mergerSends_aPassedPacket⟩

/-! ### Replies (R16, R184) -/

theorem replyPacket_entersTheQueue : replyPacketEntersTheQueue := by
  intro s p rest h
  refine ⟨fun room => ?_, fun full => ?_⟩
  · have room : s.cmd.replies.length < Config.replyQueue := room
    simp only [exec, execReplyPacketQueued, queueReply, h, if_pos room]
  · have full : ¬s.cmd.replies.length < Config.replyQueue := not_lt.2 full
    simp only [exec, execReplyPacketQueued, queueReply, h, if_neg full]

/-- The merger sends the bytes left of a local packet. -/
theorem sendBytes_local (x : Byte) (l : List Byte) :
    sendBytes (l.length + 1) (setMerger (.sendLocal (x :: l)) s) = (x :: l, setMerger .between s) := by
  induction l generalizing x with
  | nil => rfl
  | cons y l ih => exact sendBytes_succ rfl (ih y)

theorem mergerSends_aReply : mergerSendsAReplyWhole := by
  intro s p rest hm ha hr hp hd
  obtain ⟨tail, htail, length, -⟩ := packetBytes_cons p
  rw [htail]
  cases tail with
  | nil => simp at length
  | cons y l =>
    have first : mergerByte s = (0xC3, setMerger (.sendLocal (y :: l))
        (s.setCmd { s.cmd with replies := rest })) := by
      have few : fifoDepth s.tx.fifo ≤ Config.localStartDepth := hd
      simp only [mergerByte, hm, betweenByte, if_pos few, ha, hr, startLocal, htail]
      rfl
    rw [show p.payload.length + 7 = l.length + 1 + 1 by simp at length; omega]
    refine (sendBytes_succ first (sendBytes_local y l)).trans ?_
    rw [setMerger, State.setCmd_tx, ← hm]
    rfl

/-- Settles O10: into the reply queue, and out of it whole. -/
theorem repliesLeaveInOrder : Obligations.RepliesLeaveInOrder :=
  ⟨replyPacket_entersTheQueue, mergerSends_aReply⟩

end Sys2Proof.Machine
end

section
/-! PROOFS. The ingest engine: the words a frame at a busy engine writes (R27). -/

namespace Sys2Proof.Machine

open Claim

variable {s : State}

/-! ### The words of clip memory -/

/-- A write leaves every other key of a canonical or other list. -/
theorem lookupD_storeD_of_ne {α : Type} [DecidableEq α] (d : α) {l : List (Nat × α)} {n m : Nat}
    (v : α) (h : m ≠ n) : lookupD d (storeD d l n v) m = lookupD d l m := by
  induction l with
  | nil =>
    rw [storeD]
    split
    · rfl
    · simp only [lookupD, if_neg (Ne.symm h)]
  | cons q l ih =>
    obtain ⟨k, x⟩ := q
    rw [storeD]
    split
    · split
      · rfl
      · rw [lookupD, if_neg (Ne.symm h)]
    · split
      · next hk =>
        split
        · rw [lookupD, if_neg (by omega)]
        · rw [lookupD, if_neg (Ne.symm h), lookupD, if_neg (by omega)]
      · rw [lookupD, lookupD, ih]

theorem readWord_writeWord_of_ne {a b : BitVec 28} (w : Sample) (h : b ≠ a) :
    (s.writeWord a w).readWord b = s.readWord b :=
  lookupD_storeD_of_ne unwrittenWord w fun e => h (BitVec.eq_of_toNat_eq e)

theorem readWord_of_memory {s t : State} (h : t.memory = s.memory) (a : BitVec 28) :
    t.readWord a = s.readWord a := by rw [State.readWord, State.readWord, h]

theorem ending_of_settled {g : Ingest} (hs : s.settled = true) (hg : s.store.engine = some g) :
    g.ending = none := by
  obtain ⟨running, -⟩ := Bool.and_eq_true_iff.1 hs
  simpa [Store.noEnding, hg] using running

/-! ### Capturing (R27) -/

theorem slotList_drop_take (v : Vector Sample 16) {k : Nat} (h : k < 16) :
    ((slotList v).drop k).take 1 = [slotAt v k] := by
  have length : (slotList v).length = 16 := Vector.length_toList
  rw [List.drop_eq_getElem_cons (by omega), List.take_succ_cons, List.take_zero, slotAt]
  simp [slotList, h]

/-- The words written are at the addresses of the clip's next words. -/
theorem captureWords_readWord {a : BitVec 28} (l : List Sample) :
    ∀ {s : State} {g : Ingest}, s.store.engine = some g →
    (∀ k, k < l.length → a ≠ s.wordAddress (s.entry g.arm.clip) (g.words + k)) →
    (captureWords l s).readWord a = s.readWord a := by
  induction l with
  | nil => intros; rfl
  | cons w l ih =>
    intro s g hg ha
    rw [captureWords, hg]
    dsimp only
    have written : ∀ x, ((s.writeWord (s.wordAddress (s.entry g.arm.clip) g.words) w).setStore
        x).readWord a = s.readWord a := fun x =>
      readWord_writeWord_of_ne w (ha 0 (Nat.succ_pos _))
    split
    · rfl
    · exact readWord_of_memory (memory_of_still (discardIngest_still _ s)) a
    · split
      · exact written _
      · refine (ih (g := { g with words := g.words + 1 }) rfl fun k hk => ?_).trans (written _)
        have next := ha (k + 1) (Nat.succ_lt_succ hk)
        rwa [Nat.add_left_comm, Nat.add_comm] at next

theorem captureFrame_readWord {a : BitVec 28} (f : TransitFrame) {g : Ingest}
    (hg : s.store.engine = some g)
    (ha : ∀ k, k < g.arm.width → a ≠ s.wordAddress (s.entry g.arm.clip) (g.words + k)) :
    (captureFrame f s).readWord a = s.readWord a := by
  have words := captureWords_readWord (a := a)
    (((slotList f.slots).drop g.arm.firstSlot).take g.arm.width) hg
    fun k hk => ha k (hk.trans_le (List.length_take_le ..))
  unfold captureFrame
  rw [hg]
  dsimp only
  repeat' split
  all_goals first
    | rfl
    | exact words

theorem captureWritesTheNextWordsOnly : captureWritesOnlyTheNextWords := by
  intro f n s t g hg hs inbox ht a ha
  simp only [exec, execIngressFrame] at ht
  split at ht
  · split at ht
    · rw [settle_of_settled hs, takeAllRouted_of_nil inbox] at ht
      cases ht
      obtain ⟨x, y, still⟩ := lockedFrame_still f n s
      rw [readWord_of_memory (memory_of_still still), deliverFrame_eq]
      exact captureFrame_readWord x (s := (s.setRx y).joinTransit x) hg ha
    · cases ht
      rfl
  · cases ht

/-- One word with no limit and room in the page. -/
theorem captureWords_single {g : Ingest} (w : Sample) (hg : s.store.engine = some g)
    (hl : g.arm.limit = 0) (hw : g.words % 65536 ≠ 0) :
    captureWords [w] s = (s.writeWord (s.wordAddress (s.entry g.arm.clip) g.words) w).setStore
      { s.store with engine := some { g with words := g.words + 1 } } := by
  have fits : pageCheck s.store (s.entry g.arm.clip) g.words = .fits := if_pos (.inr hw)
  simp only [captureWords, hg, fits, hl, gt_iff_lt, Nat.lt_irrefl, false_and, if_false]
  rfl

/-- A good frame at an engine that runs on. -/
theorem captureFrame_good {ac : AC} {slots : Vector Sample 16} {g : Ingest}
    (hg : s.store.engine = some g) (he : g.ending = none) (hstart : g.start = none)
    (hstop : g.stop = none) (hl : g.arm.limit = 0) (hwidth : g.arm.width = 1)
    (hslot : g.arm.firstSlot < 16) (hw : g.words % 65536 ≠ 0) :
    captureFrame ⟨ac, slots, true⟩ s =
      (s.writeWord (s.wordAddress (s.entry g.arm.clip) g.words)
        (slotAt slots g.arm.firstSlot)).setStore { s.store with engine := some { g with
          words := g.words + 1, captured := ⟨ac, false⟩ :: g.captured } } := by
  have captures : g.captures ac = true := by simp only [Ingest.captures, hstart]
  have words := captureWords_single (slotAt slots g.arm.firstSlot) hg hl hw
  rw [← slotList_drop_take slots hslot] at words
  have one_more : g.words + 1 ≠ g.words := Nat.succ_ne_self _
  simp only [captureFrame, hg, he, hstop, captures, hwidth, words, Option.isSome_none,
    Bool.false_eq_true,
    if_false, if_true, State.setStore_store, one_more, Nat.add_zero, Bool.not_true]
  rfl

theorem goodFrame_isCaptured : goodFrameIsCaptured := by
  intro f n s g ⟨memory, _⟩ lock room hs inbox lane hn h0 h1 hc haux hg hstart hstop hl hwidth hslot hw
  have zeros : f.aux.toList = List.replicate 4 0 := by rw [haux]; rfl
  have captured := captureFrame_good (ac := s.carryingAC n) (slots := f.slots)
    (s := (s.setRx (s.rx.judged f .good)).joinTransit ⟨s.carryingAC n, f.slots, true⟩)
    hg (ending_of_settled hs hg) hstart hstop hl hwidth hslot hw
  have frame : lockedFrame f n s = captureFrame ⟨s.carryingAC n, f.slots, true⟩
      ((s.setRx (s.rx.judged f .good)).joinTransit ⟨s.carryingAC n, f.slots, true⟩) := by
    unfold lockedFrame
    dsimp only
    rw [judgeFrame_good h0 h1 hc, deliverFrame_eq]
    simp only [beq_self_eq_true, if_true, reportJudgment, laneFrame, zeros]
    exact foldl_laneByte_zeros _ 4 ((congrArg (fun t : State => t.lane.assembly) captured).trans lane)
  rw [captured] at frame
  refine ⟨_, (exec_ingressFrame_locked f hn lock room hs inbox).trans (congrArg _ frame), ?_, rfl⟩
  exact (readWord_writeWord _ _ _ _ memory).trans (if_pos rfl)

/-- Settles O15: what one frame writes, and that it writes nothing else. -/
theorem ingestCapturesTheFrame : Obligations.IngestCapturesTheFrame :=
  ⟨goodFrame_isCaptured, captureWritesTheNextWordsOnly⟩

end Sys2Proof.Machine
end

section
/-! PROOFS. What the work of one channel leaves: the link, the clock, clip memory, the settings, the
command unit, the next frame, and every other channel. -/

namespace Sys2Proof.Machine

/-- The other channels. -/
def State.others (c : Fin 4) (s : State) : Fin 4 → Option Channel :=
  fun d => if d = c then none else some (s.ch d)

/-- All that the work of channel c leaves as it is. -/
def State.around (c : Fin 4) (s : State) :=
  ((s.rx, s.lane, s.tx, s.clock, s.cues, s.memory, { s.store with directory := [] }),
    (s.reserve, s.gpi, s.gpo, s.cmd, s.forming, s.pending), s.others c)

/-- What two states have in common around channel c. -/
structure State.SameAround (c : Fin 4) (s t : State) : Prop where
  rx : t.rx = s.rx
  lane : t.lane = s.lane
  tx : t.tx = s.tx
  clock : t.clock = s.clock
  cues : t.cues = s.cues
  memory : t.memory = s.memory
  store : { t.store with directory := [] } = { s.store with directory := [] }
  reserve : t.reserve = s.reserve
  gpi : t.gpi = s.gpi
  gpo : t.gpo = s.gpo
  cmd : t.cmd = s.cmd
  forming : t.forming = s.forming
  pending : t.pending = s.pending
  ch : ∀ d, d ≠ c → t.ch d = s.ch d

theorem State.sameAround_of_eq {c : Fin 4} {s t : State} (h : t.around c = s.around c) :
    s.SameAround c t := by
  unfold State.around at h
  simp only [Prod.mk.injEq] at h
  obtain ⟨⟨rx, lane, tx, clock, cues, memory, store⟩, ⟨reserve, gpi, gpo, cmd, forming, pending⟩,
    ch⟩ := h
  refine ⟨rx, lane, tx, clock, cues, memory, store, reserve, gpi, gpo, cmd, forming, pending,
    fun d hd => ?_⟩
  simpa only [State.others, if_neg hd, Option.some.injEq] using congrFun ch d

section
variable (c : Fin 4) (s : State)

@[simp] theorem State.setVoices_around (x : Vector Voice 16) : (s.setVoices x).around c = s.around c := rfl
@[simp] theorem State.setEvents_around (x : List VoiceEvent) : (s.setEvents x).around c = s.around c := rfl
@[simp] theorem State.setAsrun_around (x : AsRunQueue) : (s.setAsrun x).around c = s.around c := rfl
@[simp] theorem State.setAlert_around (x : AlertUnit) : (s.setAlert x).around c = s.around c := rfl
@[simp] theorem State.setVoice_around (v : Fin 16) (x : Voice) :
    (s.setVoice v x).around c = s.around c := rfl
@[simp] theorem State.setEntry_around (n : Nat) (e : DirEntry) :
    (s.setEntry n e).around c = s.around c := rfl
@[simp] theorem State.setCh_around (x : Channel) : (s.setCh c x).around c = s.around c := by
  have others : (s.setCh c x).others c = s.others c := by
    funext d
    unfold State.others
    split
    · rfl
    · next hd => rw [State.ch_setCh_other s c d x hd]
  simp only [State.around, others]
  rfl
@[simp] theorem State.setMonitor_around (m : Monitor) :
    (s.setMonitor c m).around c = s.around c := State.setCh_around c s _

end

section
variable {c : Fin 4} {s : State}

theorem foldl_around {β : Type} {f : State → β → State}
    (h : ∀ u b, (f u b).around c = u.around c) (l : List β) : (l.foldl f s).around c = s.around c :=
  foldl_keeps (State.around c) f h l s

theorem raiseAlert_around (src : AlertSource) :
    (raiseAlert src s).around c = s.around c := by
  rw [raiseAlert_eq]
  rfl

theorem asrunWrite_around (r : AsRunRecord) :
    (asrunWrite r s).around c = s.around c := by
  rw [asrunWrite_eq]
  rfl

theorem asrunWriteAll_around (l : List AsRunRecord) :
    (asrunWriteAll l s).around c = s.around c := by
  exact foldl_around (fun u r => asrunWrite_around r) l

theorem emptyEntry_around (n : Nat) :
    (emptyEntry n s).around c = s.around c := by
  rfl

theorem releaseHold_around (n : Nat) :
    (releaseHold n s).around c = s.around c := by
  rfl

theorem holdClip_around {n : Nat} {t : State} (h : holdClip n s = some t) :
    t.around c = s.around c := by grind [holdClip, State.setEntry_around]

theorem raiseEvent_around (k : EventKind) (v : Fin 16) (ac : AC) :
    (raiseEvent k v ac s).around c = s.around c := by
  rfl

theorem releaseVoice_around (v : Fin 16) :
    (releaseVoice v s).around c = s.around c := by
  grind [releaseVoice, releaseHold_around, State.setEvents_around, State.setVoice_around]

theorem releaseChannelVoices_around (d : Fin 4) :
    (releaseChannelVoices d s).around c = s.around c := by
  exact foldl_around (fun u v => by split; exacts [releaseVoice_around v, rfl]) allVoices

theorem claimBreak_around {t : State} {d : Fin 4} {a b : Fin 16}
    (h : claimBreak d s = some (a, b, t)) : t.around c = s.around c := by
  grind [claimBreak, State.setVoice_around]

theorem claimOne_around {t : State} {d : Fin 4} {p : Purpose} {clip : Nat} {v : Fin 16}
    (h : claimOne d p clip s = .ok (v, t)) : t.around c = s.around c := by
  grind [claimOne, holdClip_around, State.setVoice_around]

theorem primeHold_around {x : Voice} {clip : Nat} {t : State} (h : primeHold x clip s = some t) :
    t.around c = s.around c := by grind [primeHold, holdClip_around, releaseHold_around]

theorem primeVoice_around (v : Fin 16) (q : PrimeReq) :
    (primeVoice v q s).2.around c = s.around c := by
  grind [primeVoice, primeHold_around, State.setVoice_around]

theorem stopVoice_around (k : EventKind) (v : Fin 16) (ac : AC) :
    (stopVoice k v ac s).around c = s.around c := by
  rfl

theorem fadeToZero_around (v : Fin 16) (j : Nat) :
    (fadeToZero v j s).2.around c = s.around c := by
  grind [fadeToZero, stopVoice_around, State.setVoice_around]

theorem rampVoice_around (v : Fin 16) (target rate interval : Nat) (stop : Bool) :
    (rampVoice v target rate interval stop s).2.around c = s.around c := by
  grind [rampVoice, stopVoice_around, State.setVoice_around]

theorem cancelVoice_around (v : Fin 16) :
    (cancelVoice v s).2.around c = s.around c := by
  unfold cancelVoice
  dsimp only
  split
  · rfl
  · exact fadeToZero_around v 0
  all_goals rfl

theorem setChannelState_around (new : ChannelState) :
    (setChannelState c new s).around c = s.around c := by
  grind [setChannelState, raiseAlert_around, State.setCh_around]

theorem fadeGain_around (level j : Nat) :
    (fadeGain c level j s).around c = s.around c := by
  exact State.setCh_around ..

theorem requestPreroll_around :
    (requestPreroll c s).2.around c = s.around c := by
  grind [requestPreroll, setChannelState_around, State.setCh_around]

theorem finishReturn_around :
    (finishReturn c s).around c = s.around c := by
  grind [finishReturn, setChannelState_around, State.setCh_around]

theorem requestWithdraw_around :
    (requestWithdraw c s).around c = s.around c := by
  grind [requestWithdraw, setChannelState_around, State.setCh_around, finishReturn_around]

theorem requestOpen_around (level : Nat) :
    (requestOpen c level s).2.around c = s.around c := by
  grind [requestOpen, setChannelState_around, State.setCh_around, fadeGain_around]

theorem requestJoin_around :
    (requestJoin c s).around c = s.around c := by
  grind [requestJoin, setChannelState_around, State.setCh_around, fadeGain_around]

theorem requestEmergency_around :
    (requestEmergency c s).2.around c = s.around c := by
  grind [requestEmergency, setChannelState_around, State.setCh_around, fadeGain_around]

theorem requestRecover_around :
    (requestRecover c s).around c = s.around c := by
  grind [requestRecover, setChannelState_around, State.setCh_around, fadeGain_around]

theorem requestEmergencyClear_around :
    (requestEmergencyClear c s).around c = s.around c := by
  grind [requestEmergencyClear, setChannelState_around, State.setCh_around, finishReturn_around]

theorem moveGain_around :
    (moveGain c s).around c = s.around c := by
  grind [moveGain, setChannelState_around, State.setCh_around]

theorem clearSilence_around :
    (clearSilence c s).around c = s.around c := by
  grind [clearSilence, raiseAlert_around, State.setMonitor_around]

theorem startEmergency_around (clip : Nat) :
    (startEmergency c clip s).around c = s.around c := by
  grind [startEmergency, claimOne_around, requestEmergency_around, primeVoice_around, releaseVoice_around, State.setMonitor_around]

theorem attemptFill_around :
    (attemptFill c s).around c = s.around c := by
  grind [attemptFill, startEmergency_around]

theorem forceFill_around :
    (forceFill c s).around c = s.around c := by
  grind [forceFill, startEmergency_around]

theorem judgeBlock_around :
    (judgeBlock c s).around c = s.around c := by
  grind [judgeBlock, attemptFill_around, raiseAlert_around, State.setMonitor_around]

theorem reachSilence_around :
    (reachSilence c s).around c = s.around c := by
  grind [reachSilence, attemptFill_around, raiseAlert_around, State.setMonitor_around]

theorem beginRecovery_around :
    (beginRecovery c s).around c = s.around c := by
  grind [beginRecovery, fadeToZero_around, requestRecover_around, State.setMonitor_around]

theorem takeOver_around :
    (takeOver c s).around c = s.around c := by
  grind [takeOver, fadeToZero_around, State.setMonitor_around]

theorem takeEmergencyEvent_around (e : VoiceEvent) :
    (takeEmergencyEvent c e s).around c = s.around c := by
  grind [takeEmergencyEvent, asrunWrite_around, releaseVoice_around, requestEmergencyClear_around, State.setMonitor_around]

theorem modRecord_around (n : Nat) (f : BreakRecord → BreakRecord) :
    (modRecord c n f s).around c = s.around c := by
  exact State.setCh_around ..

theorem releaseHolds_around (l : List Nat) :
    (releaseHolds l s).around c = s.around c := by
  exact foldl_around (fun u n => releaseHold_around n) l

theorem takeHolds_around (l : List Nat) :
    (takeHolds l s).around c = s.around c := by
  refine foldl_around (fun u n => ?_) l
  cases h : holdClip n u with
  | none => rfl
  | some t => exact holdClip_around h

theorem removeRecord_around (n : Nat) :
    (removeRecord c n s).around c = s.around c := by
  grind [removeRecord, releaseHolds_around, State.setCh_around]

theorem modParts_around (n : Nat) (f : Part → Part) :
    (modParts c n f s).around c = s.around c := by
  exact State.setCh_around ..

theorem primeNext_around (n : Nat) (v : Fin 16) :
    (primeNext c n v s).around c = s.around c := by
  unfold primeNext
  repeat' split
  all_goals grind [modParts_around, primeVoice_around]

theorem triggerFill_around (n : Nat) :
    (triggerFill c n s).around c = s.around c := by
  unfold triggerFill
  repeat' split
  all_goals grind [holdClip_around, modRecord_around]

theorem endEmptyPlan_around (r : BreakRecord) (p : Plan) :
    (endEmptyPlan c r p s).around c = s.around c := by
  rw [endEmptyPlan, removeRecord_around, asrunWriteAll_around]

theorem endRefusedClaim_around (r : BreakRecord) (p : Plan) :
    (endRefusedClaim c r p s).around c = s.around c := by
  rw [endRefusedClaim, removeRecord_around, raiseAlert_around, asrunWriteAll_around]

theorem startBreak_around (n : Nat) (p : Plan) (v : Fin 16 × Fin 16) :
    (startBreak c n p v s).around c = s.around c := by
  simp only [startBreak, primeNext_around, requestPreroll_around, modRecord_around]

theorem acceptTrigger_around (n : Nat) (start : AC) (deadline : Option AC) (late : Bool) :
    (acceptTrigger c n start deadline late s).2.around c = s.around c := by
  grind [acceptTrigger, claimBreak_around, startBreak_around, endEmptyPlan_around, endRefusedClaim_around, modRecord_around, triggerFill_around]

theorem expireRecord_around (n : Nat) :
    (expireRecord c n s).around c = s.around c := by
  grind [expireRecord, removeRecord_around, asrunWriteAll_around]

theorem releaseVoices_around (l : List (Fin 16)) :
    (releaseVoices l s).around c = s.around c := by
  exact foldl_around (fun u v => releaseVoice_around v) l

theorem completeBreak_around :
    (completeBreak c s).around c = s.around c := by
  grind [completeBreak, removeRecord_around, releaseVoices_around, asrunWriteAll_around]

theorem finishJoin_around :
    (finishJoin c s).around c = s.around c := by
  grind [finishJoin, completeBreak_around, setChannelState_around]

theorem requestBreakClear_around :
    (requestBreakClear c s).around c = s.around c := by
  grind [requestBreakClear, finishJoin_around, State.setCh_around]

theorem checkBreakClear_around :
    (checkBreakClear c s).around c = s.around c := by
  grind [checkBreakClear, requestBreakClear_around]

theorem stopForJoin_around (n : Nat) (v : Fin 16) :
    (stopForJoin c n v s).around c = s.around c := by
  grind [stopForJoin, fadeToZero_around, modParts_around, cancelVoice_around, markJoin]

theorem openBreak_around :
    (openBreak c s).around c = s.around c := by
  grind [openBreak, requestOpen_around, modRecord_around, takeOver_around]

theorem fadePredecessor_around (n k : Nat) :
    (fadePredecessor c n k s).around c = s.around c := by
  unfold fadePredecessor
  repeat' split
  all_goals grind [modParts_around, rampVoice_around]

theorem takeStarted_around (r : BreakRecord) (v : Fin 16) (at_ : AC) :
    (takeStarted c r v at_ s).around c = s.around c := by
  grind [takeStarted, modParts_around, fadePredecessor_around]

theorem takeFinished_around (r : BreakRecord) (v : Fin 16) (k : EventKind) (at_ : AC) :
    (takeFinished c r v k at_ s).around c = s.around c := by
  grind [takeFinished, modParts_around, checkBreakClear_around, primeNext_around]

theorem takeBreakEvent_around (e : VoiceEvent) :
    (takeBreakEvent c e s).around c = s.around c := by
  grind [takeBreakEvent, takeStarted_around, takeFinished_around]

theorem withdrawBreak_around (cause : Cause) :
    (withdrawBreak c cause s).around c = s.around c := by
  have cancelled (l : List (Fin 16)) (u : State) : (l.foldl (fun t v =>
      if (t.voice v).state = .primed then (cancelVoice v t).2 else t) u).around c = u.around c :=
    foldl_around (fun t v => by split; exacts [cancelVoice_around v, rfl]) l
  unfold withdrawBreak
  split
  · rfl
  · rw [removeRecord_around, requestWithdraw_around, releaseVoices_around, cancelled,
      asrunWriteAll_around]

theorem moveReturn_around (n : Nat) (x : AC) (cause : Cause) :
    (moveReturn c n x cause s).around c = s.around c := by
  exact State.setCh_around ..

theorem refuseCart_around :
    (refuseCart c s).around c = s.around c := by
  grind [refuseCart, raiseAlert_around, State.setCh_around]

theorem requestCart_around (clip level : Nat) :
    (requestCart c clip level s).2.around c = s.around c := by
  grind [requestCart, claimOne_around, refuseCart_around, primeVoice_around, State.setCh_around]

theorem takeCartEvent_around (e : VoiceEvent) :
    (takeCartEvent c e s).around c = s.around c := by
  grind [takeCartEvent, asrunWrite_around, releaseVoice_around, State.setCh_around]

theorem removeAllRecords_around :
    (removeAllRecords c s).around c = s.around c := by
  exact foldl_around (fun u n => removeRecord_around n) _

theorem resetChannel_around :
    (resetChannel c s).around c = s.around c := by
  simp only [resetChannel, setChannelState_around, clearSilence_around, State.setCh_around,
    releaseChannelVoices_around, removeAllRecords_around, asrunWriteAll_around]

end

end Sys2Proof.Machine
end

section
/-! PROOFS. What the operations of one block leave of the other blocks, field by field: the alert unit
and the as-run queue, the voices and their clips, the channels. -/

namespace Sys2Proof.Machine

variable {s : State}

/-! ### A report and a record -/

@[simp] theorem raiseAlert_rx (src : AlertSource) (s : State) : (raiseAlert src s).rx = s.rx := by
  rw [raiseAlert_eq]; rfl
@[simp] theorem raiseAlert_lane (src : AlertSource) (s : State) : (raiseAlert src s).lane = s.lane := by
  rw [raiseAlert_eq]; rfl
@[simp] theorem raiseAlert_tx (src : AlertSource) (s : State) : (raiseAlert src s).tx = s.tx := by
  rw [raiseAlert_eq]; rfl
@[simp] theorem raiseAlert_clock (src : AlertSource) (s : State) : (raiseAlert src s).clock = s.clock := by
  rw [raiseAlert_eq]; rfl
@[simp] theorem raiseAlert_cues (src : AlertSource) (s : State) : (raiseAlert src s).cues = s.cues := by
  rw [raiseAlert_eq]; rfl
@[simp] theorem raiseAlert_memory (src : AlertSource) (s : State) : (raiseAlert src s).memory = s.memory := by
  rw [raiseAlert_eq]; rfl
@[simp] theorem raiseAlert_store (src : AlertSource) (s : State) : (raiseAlert src s).store = s.store := by
  rw [raiseAlert_eq]; rfl
@[simp] theorem raiseAlert_voices (src : AlertSource) (s : State) : (raiseAlert src s).voices = s.voices := by
  rw [raiseAlert_eq]; rfl
@[simp] theorem raiseAlert_events (src : AlertSource) (s : State) : (raiseAlert src s).events = s.events := by
  rw [raiseAlert_eq]; rfl
@[simp] theorem raiseAlert_reserve (src : AlertSource) (s : State) : (raiseAlert src s).reserve = s.reserve := by
  rw [raiseAlert_eq]; rfl
@[simp] theorem raiseAlert_chans (src : AlertSource) (s : State) : (raiseAlert src s).chans = s.chans := by
  rw [raiseAlert_eq]; rfl
@[simp] theorem raiseAlert_gpi (src : AlertSource) (s : State) : (raiseAlert src s).gpi = s.gpi := by
  rw [raiseAlert_eq]; rfl
@[simp] theorem raiseAlert_gpo (src : AlertSource) (s : State) : (raiseAlert src s).gpo = s.gpo := by
  rw [raiseAlert_eq]; rfl
@[simp] theorem raiseAlert_asrun (src : AlertSource) (s : State) : (raiseAlert src s).asrun = s.asrun := by
  rw [raiseAlert_eq]; rfl
@[simp] theorem raiseAlert_cmd (src : AlertSource) (s : State) : (raiseAlert src s).cmd = s.cmd := by
  rw [raiseAlert_eq]; rfl
@[simp] theorem raiseAlert_forming (src : AlertSource) (s : State) : (raiseAlert src s).forming = s.forming := by
  rw [raiseAlert_eq]; rfl
@[simp] theorem raiseAlert_pending (src : AlertSource) (s : State) : (raiseAlert src s).pending = s.pending := by
  rw [raiseAlert_eq]; rfl

@[simp] theorem raiseAlert_ch (src : AlertSource) (s : State) (c : Fin 4) :
    (raiseAlert src s).ch c = s.ch c := by rw [raiseAlert_eq]; rfl
@[simp] theorem raiseAlert_voice (src : AlertSource) (s : State) (v : Fin 16) :
    (raiseAlert src s).voice v = s.voice v := by rw [raiseAlert_eq]; rfl
@[simp] theorem raiseAlert_entry (src : AlertSource) (s : State) (n : Nat) :
    (raiseAlert src s).entry n = s.entry n := by rw [raiseAlert_eq]; rfl
@[simp] theorem raiseAlert_nextAC (src : AlertSource) (s : State) :
    (raiseAlert src s).nextAC = s.nextAC := by rw [raiseAlert_eq]; rfl

@[simp] theorem asrunWrite_rx (r : AsRunRecord) (s : State) : (asrunWrite r s).rx = s.rx := by
  rw [asrunWrite_eq]; rfl
@[simp] theorem asrunWrite_lane (r : AsRunRecord) (s : State) : (asrunWrite r s).lane = s.lane := by
  rw [asrunWrite_eq]; rfl
@[simp] theorem asrunWrite_tx (r : AsRunRecord) (s : State) : (asrunWrite r s).tx = s.tx := by
  rw [asrunWrite_eq]; rfl
@[simp] theorem asrunWrite_clock (r : AsRunRecord) (s : State) : (asrunWrite r s).clock = s.clock := by
  rw [asrunWrite_eq]; rfl
@[simp] theorem asrunWrite_cues (r : AsRunRecord) (s : State) : (asrunWrite r s).cues = s.cues := by
  rw [asrunWrite_eq]; rfl
@[simp] theorem asrunWrite_memory (r : AsRunRecord) (s : State) : (asrunWrite r s).memory = s.memory := by
  rw [asrunWrite_eq]; rfl
@[simp] theorem asrunWrite_store (r : AsRunRecord) (s : State) : (asrunWrite r s).store = s.store := by
  rw [asrunWrite_eq]; rfl
@[simp] theorem asrunWrite_voices (r : AsRunRecord) (s : State) : (asrunWrite r s).voices = s.voices := by
  rw [asrunWrite_eq]; rfl
@[simp] theorem asrunWrite_events (r : AsRunRecord) (s : State) : (asrunWrite r s).events = s.events := by
  rw [asrunWrite_eq]; rfl
@[simp] theorem asrunWrite_reserve (r : AsRunRecord) (s : State) : (asrunWrite r s).reserve = s.reserve := by
  rw [asrunWrite_eq]; rfl
@[simp] theorem asrunWrite_chans (r : AsRunRecord) (s : State) : (asrunWrite r s).chans = s.chans := by
  rw [asrunWrite_eq]; rfl
@[simp] theorem asrunWrite_gpi (r : AsRunRecord) (s : State) : (asrunWrite r s).gpi = s.gpi := by
  rw [asrunWrite_eq]; rfl
@[simp] theorem asrunWrite_gpo (r : AsRunRecord) (s : State) : (asrunWrite r s).gpo = s.gpo := by
  rw [asrunWrite_eq]; rfl
@[simp] theorem asrunWrite_cmd (r : AsRunRecord) (s : State) : (asrunWrite r s).cmd = s.cmd := by
  rw [asrunWrite_eq]; rfl
@[simp] theorem asrunWrite_forming (r : AsRunRecord) (s : State) : (asrunWrite r s).forming = s.forming := by
  rw [asrunWrite_eq]; rfl
@[simp] theorem asrunWrite_pending (r : AsRunRecord) (s : State) : (asrunWrite r s).pending = s.pending := by
  rw [asrunWrite_eq]; rfl

/-- The blocks a record handed over leaves. -/
theorem asrunWriteAll_keeps {α : Type} (g : State → α) (h : ∀ r s, g (asrunWrite r s) = g s)
    (l : List AsRunRecord) (s : State) : g (asrunWriteAll l s) = g s :=
  foldl_keeps g _ (fun s r => h r s) l s

@[simp] theorem asrunWriteAll_rx (l : List AsRunRecord) (s : State) :
    (asrunWriteAll l s).rx = s.rx := asrunWriteAll_keeps State.rx asrunWrite_rx l s
@[simp] theorem asrunWriteAll_lane (l : List AsRunRecord) (s : State) :
    (asrunWriteAll l s).lane = s.lane := asrunWriteAll_keeps State.lane asrunWrite_lane l s
@[simp] theorem asrunWriteAll_tx (l : List AsRunRecord) (s : State) :
    (asrunWriteAll l s).tx = s.tx := asrunWriteAll_keeps State.tx asrunWrite_tx l s
@[simp] theorem asrunWriteAll_clock (l : List AsRunRecord) (s : State) :
    (asrunWriteAll l s).clock = s.clock := asrunWriteAll_keeps State.clock asrunWrite_clock l s
@[simp] theorem asrunWriteAll_cues (l : List AsRunRecord) (s : State) :
    (asrunWriteAll l s).cues = s.cues := asrunWriteAll_keeps State.cues asrunWrite_cues l s
@[simp] theorem asrunWriteAll_memory (l : List AsRunRecord) (s : State) :
    (asrunWriteAll l s).memory = s.memory := asrunWriteAll_keeps State.memory asrunWrite_memory l s
@[simp] theorem asrunWriteAll_store (l : List AsRunRecord) (s : State) :
    (asrunWriteAll l s).store = s.store := asrunWriteAll_keeps State.store asrunWrite_store l s
@[simp] theorem asrunWriteAll_voices (l : List AsRunRecord) (s : State) :
    (asrunWriteAll l s).voices = s.voices := asrunWriteAll_keeps State.voices asrunWrite_voices l s
@[simp] theorem asrunWriteAll_events (l : List AsRunRecord) (s : State) :
    (asrunWriteAll l s).events = s.events := asrunWriteAll_keeps State.events asrunWrite_events l s
@[simp] theorem asrunWriteAll_reserve (l : List AsRunRecord) (s : State) :
    (asrunWriteAll l s).reserve = s.reserve := asrunWriteAll_keeps State.reserve asrunWrite_reserve l s
@[simp] theorem asrunWriteAll_chans (l : List AsRunRecord) (s : State) :
    (asrunWriteAll l s).chans = s.chans := asrunWriteAll_keeps State.chans asrunWrite_chans l s
@[simp] theorem asrunWriteAll_gpi (l : List AsRunRecord) (s : State) :
    (asrunWriteAll l s).gpi = s.gpi := asrunWriteAll_keeps State.gpi asrunWrite_gpi l s
@[simp] theorem asrunWriteAll_gpo (l : List AsRunRecord) (s : State) :
    (asrunWriteAll l s).gpo = s.gpo := asrunWriteAll_keeps State.gpo asrunWrite_gpo l s
@[simp] theorem asrunWriteAll_cmd (l : List AsRunRecord) (s : State) :
    (asrunWriteAll l s).cmd = s.cmd := asrunWriteAll_keeps State.cmd asrunWrite_cmd l s
@[simp] theorem asrunWriteAll_forming (l : List AsRunRecord) (s : State) :
    (asrunWriteAll l s).forming = s.forming := asrunWriteAll_keeps State.forming asrunWrite_forming l s
@[simp] theorem asrunWriteAll_pending (l : List AsRunRecord) (s : State) :
    (asrunWriteAll l s).pending = s.pending := asrunWriteAll_keeps State.pending asrunWrite_pending l s

theorem ch_of_chans {t : State} (h : t.chans = s.chans) (c : Fin 4) : t.ch c = s.ch c := by
  rw [State.ch, State.ch, h]

theorem voice_of_voices {t : State} (h : t.voices = s.voices) (v : Fin 16) :
    t.voice v = s.voice v := by rw [State.voice, State.voice, h]

theorem entry_of_store {t : State} (h : t.store = s.store) (n : Nat) : t.entry n = s.entry n := by
  rw [State.entry, State.entry, h]

@[simp] theorem asrunWriteAll_ch (l : List AsRunRecord) (s : State) (c : Fin 4) :
    (asrunWriteAll l s).ch c = s.ch c := ch_of_chans (asrunWriteAll_chans l s) c
@[simp] theorem asrunWriteAll_voice (l : List AsRunRecord) (s : State) (v : Fin 16) :
    (asrunWriteAll l s).voice v = s.voice v := voice_of_voices (asrunWriteAll_voices l s) v
@[simp] theorem asrunWriteAll_entry (l : List AsRunRecord) (s : State) (n : Nat) :
    (asrunWriteAll l s).entry n = s.entry n := entry_of_store (asrunWriteAll_store l s) n

/-! ### The voices and their clips: the channels, the records and the reports stay -/

/-- What the work of the voices leaves. -/
def State.besideVoices (s : State) := (s.chans, s.asrun, s.alert)

section
variable (s)
@[simp] theorem State.setVoices_besideVoices (x : Vector Voice 16) :
    (s.setVoices x).besideVoices = s.besideVoices := rfl
@[simp] theorem State.setEvents_besideVoices (x : List VoiceEvent) :
    (s.setEvents x).besideVoices = s.besideVoices := rfl
@[simp] theorem State.setStore_besideVoices (x : Store) :
    (s.setStore x).besideVoices = s.besideVoices := rfl
@[simp] theorem State.setVoice_besideVoices (v : Fin 16) (x : Voice) :
    (s.setVoice v x).besideVoices = s.besideVoices := rfl
@[simp] theorem State.setEntry_besideVoices (n : Nat) (e : DirEntry) :
    (s.setEntry n e).besideVoices = s.besideVoices := rfl
end

theorem foldl_besideVoices {β : Type} {f : State → β → State}
    (h : ∀ u b, (f u b).besideVoices = u.besideVoices) (l : List β) :
    (l.foldl f s).besideVoices = s.besideVoices := foldl_keeps State.besideVoices f h l s

theorem releaseHold_besideVoices (n : Nat) (s : State) :
    (releaseHold n s).besideVoices = s.besideVoices := by
  rfl

theorem holdClip_besideVoices {n : Nat} {t : State} (h : holdClip n s = some t) :
    t.besideVoices = s.besideVoices := by grind [holdClip, State.setEntry_besideVoices]

theorem raiseEvent_besideVoices (k : EventKind) (v : Fin 16) (ac : AC) (s : State) :
    (raiseEvent k v ac s).besideVoices = s.besideVoices := by
  rfl

theorem releaseVoice_besideVoices (v : Fin 16) (s : State) :
    (releaseVoice v s).besideVoices = s.besideVoices := by
  grind [releaseVoice, releaseHold_besideVoices, State.setEvents_besideVoices, State.setVoice_besideVoices]

theorem releaseChannelVoices_besideVoices (d : Fin 4) (s : State) :
    (releaseChannelVoices d s).besideVoices = s.besideVoices := by
  exact foldl_besideVoices (fun u v => by split; exacts [releaseVoice_besideVoices v u, rfl]) allVoices

theorem releaseVoices_besideVoices (l : List (Fin 16)) (s : State) :
    (releaseVoices l s).besideVoices = s.besideVoices := by
  exact foldl_besideVoices (fun u v => releaseVoice_besideVoices v u) l

theorem releaseHolds_besideVoices (l : List Nat) (s : State) :
    (releaseHolds l s).besideVoices = s.besideVoices := by
  exact foldl_besideVoices (fun u n => releaseHold_besideVoices n u) l

theorem takeHolds_besideVoices (l : List Nat) (s : State) :
    (takeHolds l s).besideVoices = s.besideVoices := by
  refine foldl_besideVoices (fun u n => ?_) l
  cases h : holdClip n u with
  | none => rfl
  | some t => exact holdClip_besideVoices h

theorem claimBreak_besideVoices {t : State} {d : Fin 4} {a b : Fin 16}
    (h : claimBreak d s = some (a, b, t)) : t.besideVoices = s.besideVoices := by
  grind [claimBreak, State.setVoice_besideVoices]

theorem claimOne_besideVoices {t : State} {d : Fin 4} {p : Purpose} {clip : Nat} {v : Fin 16}
    (h : claimOne d p clip s = .ok (v, t)) : t.besideVoices = s.besideVoices := by
  grind [claimOne, holdClip_besideVoices, State.setVoice_besideVoices]

theorem primeHold_besideVoices {x : Voice} {clip : Nat} {t : State}
    (h : primeHold x clip s = some t) : t.besideVoices = s.besideVoices := by
  grind [primeHold, holdClip_besideVoices, releaseHold_besideVoices]

theorem primeVoice_besideVoices (v : Fin 16) (q : PrimeReq) (s : State) :
    (primeVoice v q s).2.besideVoices = s.besideVoices := by
  grind [primeVoice, primeHold_besideVoices, State.setVoice_besideVoices]

theorem stopVoice_besideVoices (k : EventKind) (v : Fin 16) (ac : AC) (s : State) :
    (stopVoice k v ac s).besideVoices = s.besideVoices := by
  rfl

theorem fadeToZero_besideVoices (v : Fin 16) (j : Nat) (s : State) :
    (fadeToZero v j s).2.besideVoices = s.besideVoices := by
  grind [fadeToZero, stopVoice_besideVoices, State.setVoice_besideVoices]

theorem rampVoice_besideVoices (v : Fin 16) (target rate interval : Nat) (stop : Bool) (s : State) :
    (rampVoice v target rate interval stop s).2.besideVoices = s.besideVoices := by
  grind [rampVoice, stopVoice_besideVoices, State.setVoice_besideVoices]

theorem stageVoice_besideVoices (v : Fin 16) (target rate : Nat) (s : State) :
    (stageVoice v target rate s).2.besideVoices = s.besideVoices := by
  grind [stageVoice, stopVoice_besideVoices, State.setVoice_besideVoices]

theorem cancelVoice_besideVoices (v : Fin 16) (s : State) :
    (cancelVoice v s).2.besideVoices = s.besideVoices := by
  unfold cancelVoice
  dsimp only
  split
  · rfl
  · exact fadeToZero_besideVoices v 0 s
  all_goals rfl

theorem State.besideVoices_eq {t : State} (h : t.besideVoices = s.besideVoices) :
    t.chans = s.chans ∧ t.asrun = s.asrun ∧ t.alert = s.alert := by
  unfold State.besideVoices at h
  simpa only [Prod.mk.injEq] using h

@[simp] theorem releaseHold_chans (n : Nat) (s : State) :
    (releaseHold n s).chans = s.chans := (State.besideVoices_eq (releaseHold_besideVoices n s)).1
@[simp] theorem releaseHold_asrun (n : Nat) (s : State) :
    (releaseHold n s).asrun = s.asrun := (State.besideVoices_eq (releaseHold_besideVoices n s)).2.1
@[simp] theorem releaseHold_alert (n : Nat) (s : State) :
    (releaseHold n s).alert = s.alert := (State.besideVoices_eq (releaseHold_besideVoices n s)).2.2
@[simp] theorem releaseHold_ch (n : Nat) (s : State) (c' : Fin 4) :
    (releaseHold n s).ch c' = s.ch c' := ch_of_chans (releaseHold_chans n s) _
@[simp] theorem raiseEvent_chans (k : EventKind) (v : Fin 16) (ac : AC) (s : State) :
    (raiseEvent k v ac s).chans = s.chans := (State.besideVoices_eq (raiseEvent_besideVoices k v ac s)).1
@[simp] theorem raiseEvent_asrun (k : EventKind) (v : Fin 16) (ac : AC) (s : State) :
    (raiseEvent k v ac s).asrun = s.asrun := (State.besideVoices_eq (raiseEvent_besideVoices k v ac s)).2.1
@[simp] theorem raiseEvent_alert (k : EventKind) (v : Fin 16) (ac : AC) (s : State) :
    (raiseEvent k v ac s).alert = s.alert := (State.besideVoices_eq (raiseEvent_besideVoices k v ac s)).2.2
@[simp] theorem raiseEvent_ch (k : EventKind) (v : Fin 16) (ac : AC) (s : State) (c' : Fin 4) :
    (raiseEvent k v ac s).ch c' = s.ch c' := ch_of_chans (raiseEvent_chans k v ac s) _
@[simp] theorem releaseVoice_chans (v : Fin 16) (s : State) :
    (releaseVoice v s).chans = s.chans := (State.besideVoices_eq (releaseVoice_besideVoices v s)).1
@[simp] theorem releaseVoice_asrun (v : Fin 16) (s : State) :
    (releaseVoice v s).asrun = s.asrun := (State.besideVoices_eq (releaseVoice_besideVoices v s)).2.1
@[simp] theorem releaseVoice_alert (v : Fin 16) (s : State) :
    (releaseVoice v s).alert = s.alert := (State.besideVoices_eq (releaseVoice_besideVoices v s)).2.2
@[simp] theorem releaseVoice_ch (v : Fin 16) (s : State) (c' : Fin 4) :
    (releaseVoice v s).ch c' = s.ch c' := ch_of_chans (releaseVoice_chans v s) _
@[simp] theorem releaseChannelVoices_chans (d : Fin 4) (s : State) :
    (releaseChannelVoices d s).chans = s.chans := (State.besideVoices_eq (releaseChannelVoices_besideVoices d s)).1
@[simp] theorem releaseChannelVoices_asrun (d : Fin 4) (s : State) :
    (releaseChannelVoices d s).asrun = s.asrun := (State.besideVoices_eq (releaseChannelVoices_besideVoices d s)).2.1
@[simp] theorem releaseChannelVoices_alert (d : Fin 4) (s : State) :
    (releaseChannelVoices d s).alert = s.alert := (State.besideVoices_eq (releaseChannelVoices_besideVoices d s)).2.2
@[simp] theorem releaseChannelVoices_ch (d : Fin 4) (s : State) (c' : Fin 4) :
    (releaseChannelVoices d s).ch c' = s.ch c' := ch_of_chans (releaseChannelVoices_chans d s) _
@[simp] theorem releaseVoices_chans (l : List (Fin 16)) (s : State) :
    (releaseVoices l s).chans = s.chans := (State.besideVoices_eq (releaseVoices_besideVoices l s)).1
@[simp] theorem releaseVoices_asrun (l : List (Fin 16)) (s : State) :
    (releaseVoices l s).asrun = s.asrun := (State.besideVoices_eq (releaseVoices_besideVoices l s)).2.1
@[simp] theorem releaseVoices_alert (l : List (Fin 16)) (s : State) :
    (releaseVoices l s).alert = s.alert := (State.besideVoices_eq (releaseVoices_besideVoices l s)).2.2
@[simp] theorem releaseVoices_ch (l : List (Fin 16)) (s : State) (c' : Fin 4) :
    (releaseVoices l s).ch c' = s.ch c' := ch_of_chans (releaseVoices_chans l s) _
@[simp] theorem releaseHolds_chans (l : List Nat) (s : State) :
    (releaseHolds l s).chans = s.chans := (State.besideVoices_eq (releaseHolds_besideVoices l s)).1
@[simp] theorem releaseHolds_asrun (l : List Nat) (s : State) :
    (releaseHolds l s).asrun = s.asrun := (State.besideVoices_eq (releaseHolds_besideVoices l s)).2.1
@[simp] theorem releaseHolds_alert (l : List Nat) (s : State) :
    (releaseHolds l s).alert = s.alert := (State.besideVoices_eq (releaseHolds_besideVoices l s)).2.2
@[simp] theorem releaseHolds_ch (l : List Nat) (s : State) (c' : Fin 4) :
    (releaseHolds l s).ch c' = s.ch c' := ch_of_chans (releaseHolds_chans l s) _
@[simp] theorem takeHolds_chans (l : List Nat) (s : State) :
    (takeHolds l s).chans = s.chans := (State.besideVoices_eq (takeHolds_besideVoices l s)).1
@[simp] theorem takeHolds_asrun (l : List Nat) (s : State) :
    (takeHolds l s).asrun = s.asrun := (State.besideVoices_eq (takeHolds_besideVoices l s)).2.1
@[simp] theorem takeHolds_alert (l : List Nat) (s : State) :
    (takeHolds l s).alert = s.alert := (State.besideVoices_eq (takeHolds_besideVoices l s)).2.2
@[simp] theorem primeVoice_chans (v : Fin 16) (q : PrimeReq) (s : State) :
    (primeVoice v q s).2.chans = s.chans := (State.besideVoices_eq (primeVoice_besideVoices v q s)).1
@[simp] theorem primeVoice_asrun (v : Fin 16) (q : PrimeReq) (s : State) :
    (primeVoice v q s).2.asrun = s.asrun := (State.besideVoices_eq (primeVoice_besideVoices v q s)).2.1
@[simp] theorem primeVoice_alert (v : Fin 16) (q : PrimeReq) (s : State) :
    (primeVoice v q s).2.alert = s.alert := (State.besideVoices_eq (primeVoice_besideVoices v q s)).2.2
@[simp] theorem primeVoice_ch (v : Fin 16) (q : PrimeReq) (s : State) (c' : Fin 4) :
    (primeVoice v q s).2.ch c' = s.ch c' := ch_of_chans (primeVoice_chans v q s) _
@[simp] theorem stopVoice_chans (k : EventKind) (v : Fin 16) (ac : AC) (s : State) :
    (stopVoice k v ac s).chans = s.chans := (State.besideVoices_eq (stopVoice_besideVoices k v ac s)).1
@[simp] theorem stopVoice_asrun (k : EventKind) (v : Fin 16) (ac : AC) (s : State) :
    (stopVoice k v ac s).asrun = s.asrun := (State.besideVoices_eq (stopVoice_besideVoices k v ac s)).2.1
@[simp] theorem stopVoice_alert (k : EventKind) (v : Fin 16) (ac : AC) (s : State) :
    (stopVoice k v ac s).alert = s.alert := (State.besideVoices_eq (stopVoice_besideVoices k v ac s)).2.2
@[simp] theorem stopVoice_ch (k : EventKind) (v : Fin 16) (ac : AC) (s : State) (c' : Fin 4) :
    (stopVoice k v ac s).ch c' = s.ch c' := ch_of_chans (stopVoice_chans k v ac s) _
@[simp] theorem fadeToZero_chans (v : Fin 16) (j : Nat) (s : State) :
    (fadeToZero v j s).2.chans = s.chans := (State.besideVoices_eq (fadeToZero_besideVoices v j s)).1
@[simp] theorem fadeToZero_asrun (v : Fin 16) (j : Nat) (s : State) :
    (fadeToZero v j s).2.asrun = s.asrun := (State.besideVoices_eq (fadeToZero_besideVoices v j s)).2.1
@[simp] theorem fadeToZero_alert (v : Fin 16) (j : Nat) (s : State) :
    (fadeToZero v j s).2.alert = s.alert := (State.besideVoices_eq (fadeToZero_besideVoices v j s)).2.2
@[simp] theorem fadeToZero_ch (v : Fin 16) (j : Nat) (s : State) (c' : Fin 4) :
    (fadeToZero v j s).2.ch c' = s.ch c' := ch_of_chans (fadeToZero_chans v j s) _
@[simp] theorem rampVoice_chans (v : Fin 16) (target rate interval : Nat) (stop : Bool) (s : State) :
    (rampVoice v target rate interval stop s).2.chans = s.chans := (State.besideVoices_eq (rampVoice_besideVoices v target rate interval stop s)).1
@[simp] theorem rampVoice_asrun (v : Fin 16) (target rate interval : Nat) (stop : Bool) (s : State) :
    (rampVoice v target rate interval stop s).2.asrun = s.asrun := (State.besideVoices_eq (rampVoice_besideVoices v target rate interval stop s)).2.1
@[simp] theorem rampVoice_alert (v : Fin 16) (target rate interval : Nat) (stop : Bool) (s : State) :
    (rampVoice v target rate interval stop s).2.alert = s.alert := (State.besideVoices_eq (rampVoice_besideVoices v target rate interval stop s)).2.2
@[simp] theorem rampVoice_ch (v : Fin 16) (target rate interval : Nat) (stop : Bool) (s : State) (c' : Fin 4) :
    (rampVoice v target rate interval stop s).2.ch c' = s.ch c' := ch_of_chans (rampVoice_chans v target rate interval stop s) _
@[simp] theorem stageVoice_chans (v : Fin 16) (target rate : Nat) (s : State) :
    (stageVoice v target rate s).2.chans = s.chans := (State.besideVoices_eq (stageVoice_besideVoices v target rate s)).1
@[simp] theorem stageVoice_asrun (v : Fin 16) (target rate : Nat) (s : State) :
    (stageVoice v target rate s).2.asrun = s.asrun := (State.besideVoices_eq (stageVoice_besideVoices v target rate s)).2.1
@[simp] theorem stageVoice_alert (v : Fin 16) (target rate : Nat) (s : State) :
    (stageVoice v target rate s).2.alert = s.alert := (State.besideVoices_eq (stageVoice_besideVoices v target rate s)).2.2
@[simp] theorem stageVoice_ch (v : Fin 16) (target rate : Nat) (s : State) (c' : Fin 4) :
    (stageVoice v target rate s).2.ch c' = s.ch c' := ch_of_chans (stageVoice_chans v target rate s) _
@[simp] theorem cancelVoice_chans (v : Fin 16) (s : State) :
    (cancelVoice v s).2.chans = s.chans := (State.besideVoices_eq (cancelVoice_besideVoices v s)).1
@[simp] theorem cancelVoice_asrun (v : Fin 16) (s : State) :
    (cancelVoice v s).2.asrun = s.asrun := (State.besideVoices_eq (cancelVoice_besideVoices v s)).2.1
@[simp] theorem cancelVoice_alert (v : Fin 16) (s : State) :
    (cancelVoice v s).2.alert = s.alert := (State.besideVoices_eq (cancelVoice_besideVoices v s)).2.2
@[simp] theorem cancelVoice_ch (v : Fin 16) (s : State) (c' : Fin 4) :
    (cancelVoice v s).2.ch c' = s.ch c' := ch_of_chans (cancelVoice_chans v s) _

/-! ### The state of a channel: the voices, their clips and the records stay -/

/-- What the work of a channel's own state leaves. -/
def State.besideChannels (s : State) := (s.voices, s.events, s.store, s.asrun)

section
variable (s)
@[simp] theorem State.setChans_besideChannels (x : Vector Channel 4) :
    (s.setChans x).besideChannels = s.besideChannels := rfl
@[simp] theorem State.setCh_besideChannels (c : Fin 4) (x : Channel) :
    (s.setCh c x).besideChannels = s.besideChannels := rfl
@[simp] theorem State.setMonitor_besideChannels (c : Fin 4) (m : Monitor) :
    (s.setMonitor c m).besideChannels = s.besideChannels := rfl
@[simp] theorem raiseAlert_besideChannels (src : AlertSource) :
    (raiseAlert src s).besideChannels = s.besideChannels := by rw [raiseAlert_eq]; rfl
end

theorem setChannelState_besideChannels (c : Fin 4) (new : ChannelState) (s : State) :
    (setChannelState c new s).besideChannels = s.besideChannels := by
  grind [setChannelState, raiseAlert_besideChannels, State.setCh_besideChannels]

theorem fadeGain_besideChannels (c : Fin 4) (level j : Nat) (s : State) :
    (fadeGain c level j s).besideChannels = s.besideChannels := by
  rfl

theorem requestPreroll_besideChannels (c : Fin 4) (s : State) :
    (requestPreroll c s).2.besideChannels = s.besideChannels := by
  grind [requestPreroll, setChannelState_besideChannels, State.setCh_besideChannels]

theorem finishReturn_besideChannels (c : Fin 4) (s : State) :
    (finishReturn c s).besideChannels = s.besideChannels := by
  grind [finishReturn, setChannelState_besideChannels, State.setCh_besideChannels]

theorem requestWithdraw_besideChannels (c : Fin 4) (s : State) :
    (requestWithdraw c s).besideChannels = s.besideChannels := by
  grind [requestWithdraw, setChannelState_besideChannels, State.setCh_besideChannels, finishReturn_besideChannels]

theorem requestOpen_besideChannels (c : Fin 4) (level : Nat) (s : State) :
    (requestOpen c level s).2.besideChannels = s.besideChannels := by
  grind [requestOpen, setChannelState_besideChannels, State.setCh_besideChannels, fadeGain_besideChannels]

theorem requestJoin_besideChannels (c : Fin 4) (s : State) :
    (requestJoin c s).besideChannels = s.besideChannels := by
  grind [requestJoin, setChannelState_besideChannels, State.setCh_besideChannels, fadeGain_besideChannels]

theorem requestEmergency_besideChannels (c : Fin 4) (s : State) :
    (requestEmergency c s).2.besideChannels = s.besideChannels := by
  grind [requestEmergency, setChannelState_besideChannels, State.setCh_besideChannels, fadeGain_besideChannels]

theorem requestRecover_besideChannels (c : Fin 4) (s : State) :
    (requestRecover c s).besideChannels = s.besideChannels := by
  grind [requestRecover, setChannelState_besideChannels, State.setCh_besideChannels, fadeGain_besideChannels]

theorem requestEmergencyClear_besideChannels (c : Fin 4) (s : State) :
    (requestEmergencyClear c s).besideChannels = s.besideChannels := by
  grind [requestEmergencyClear, setChannelState_besideChannels, State.setCh_besideChannels, finishReturn_besideChannels]

theorem moveGain_besideChannels (c : Fin 4) (s : State) :
    (moveGain c s).besideChannels = s.besideChannels := by
  grind [moveGain, setChannelState_besideChannels, State.setCh_besideChannels]

theorem clearSilence_besideChannels (c : Fin 4) (s : State) :
    (clearSilence c s).besideChannels = s.besideChannels := by
  grind [clearSilence, raiseAlert_besideChannels, State.setMonitor_besideChannels]

theorem modRecord_besideChannels (c : Fin 4) (n : Nat) (f : BreakRecord → BreakRecord) (s : State) :
    (modRecord c n f s).besideChannels = s.besideChannels := by
  rfl

theorem modParts_besideChannels (c : Fin 4) (n : Nat) (f : Part → Part) (s : State) :
    (modParts c n f s).besideChannels = s.besideChannels := by
  rfl

theorem moveReturn_besideChannels (c : Fin 4) (n : Nat) (x : AC) (cause : Cause) (s : State) :
    (moveReturn c n x cause s).besideChannels = s.besideChannels := by
  rfl

theorem refuseCart_besideChannels (c : Fin 4) (s : State) :
    (refuseCart c s).besideChannels = s.besideChannels := by
  grind [refuseCart, raiseAlert_besideChannels, State.setCh_besideChannels]

theorem State.besideChannels_eq {t : State} (h : t.besideChannels = s.besideChannels) :
    t.voices = s.voices ∧ t.events = s.events ∧ t.store = s.store ∧ t.asrun = s.asrun := by
  unfold State.besideChannels at h
  simpa only [Prod.mk.injEq] using h

@[simp] theorem setChannelState_voices (c : Fin 4) (new : ChannelState) (s : State) :
    (setChannelState c new s).voices = s.voices := (State.besideChannels_eq (setChannelState_besideChannels c new s)).1
@[simp] theorem setChannelState_events (c : Fin 4) (new : ChannelState) (s : State) :
    (setChannelState c new s).events = s.events := (State.besideChannels_eq (setChannelState_besideChannels c new s)).2.1
@[simp] theorem setChannelState_store (c : Fin 4) (new : ChannelState) (s : State) :
    (setChannelState c new s).store = s.store := (State.besideChannels_eq (setChannelState_besideChannels c new s)).2.2.1
@[simp] theorem setChannelState_asrun (c : Fin 4) (new : ChannelState) (s : State) :
    (setChannelState c new s).asrun = s.asrun := (State.besideChannels_eq (setChannelState_besideChannels c new s)).2.2.2
@[simp] theorem setChannelState_voice (c : Fin 4) (new : ChannelState) (s : State) (v : Fin 16) :
    (setChannelState c new s).voice v = s.voice v := voice_of_voices (setChannelState_voices c new s) v
@[simp] theorem setChannelState_entry (c : Fin 4) (new : ChannelState) (s : State) (k : Nat) :
    (setChannelState c new s).entry k = s.entry k := entry_of_store (setChannelState_store c new s) k
@[simp] theorem fadeGain_voices (c : Fin 4) (level j : Nat) (s : State) :
    (fadeGain c level j s).voices = s.voices := (State.besideChannels_eq (fadeGain_besideChannels c level j s)).1
@[simp] theorem fadeGain_events (c : Fin 4) (level j : Nat) (s : State) :
    (fadeGain c level j s).events = s.events := (State.besideChannels_eq (fadeGain_besideChannels c level j s)).2.1
@[simp] theorem fadeGain_store (c : Fin 4) (level j : Nat) (s : State) :
    (fadeGain c level j s).store = s.store := (State.besideChannels_eq (fadeGain_besideChannels c level j s)).2.2.1
@[simp] theorem fadeGain_asrun (c : Fin 4) (level j : Nat) (s : State) :
    (fadeGain c level j s).asrun = s.asrun := (State.besideChannels_eq (fadeGain_besideChannels c level j s)).2.2.2
@[simp] theorem fadeGain_voice (c : Fin 4) (level j : Nat) (s : State) (v : Fin 16) :
    (fadeGain c level j s).voice v = s.voice v := voice_of_voices (fadeGain_voices c level j s) v
@[simp] theorem fadeGain_entry (c : Fin 4) (level j : Nat) (s : State) (k : Nat) :
    (fadeGain c level j s).entry k = s.entry k := entry_of_store (fadeGain_store c level j s) k
@[simp] theorem requestPreroll_voices (c : Fin 4) (s : State) :
    (requestPreroll c s).2.voices = s.voices := (State.besideChannels_eq (requestPreroll_besideChannels c s)).1
@[simp] theorem requestPreroll_events (c : Fin 4) (s : State) :
    (requestPreroll c s).2.events = s.events := (State.besideChannels_eq (requestPreroll_besideChannels c s)).2.1
@[simp] theorem requestPreroll_store (c : Fin 4) (s : State) :
    (requestPreroll c s).2.store = s.store := (State.besideChannels_eq (requestPreroll_besideChannels c s)).2.2.1
@[simp] theorem requestPreroll_asrun (c : Fin 4) (s : State) :
    (requestPreroll c s).2.asrun = s.asrun := (State.besideChannels_eq (requestPreroll_besideChannels c s)).2.2.2
@[simp] theorem requestPreroll_voice (c : Fin 4) (s : State) (v : Fin 16) :
    (requestPreroll c s).2.voice v = s.voice v := voice_of_voices (requestPreroll_voices c s) v
@[simp] theorem requestPreroll_entry (c : Fin 4) (s : State) (k : Nat) :
    (requestPreroll c s).2.entry k = s.entry k := entry_of_store (requestPreroll_store c s) k
@[simp] theorem finishReturn_voices (c : Fin 4) (s : State) :
    (finishReturn c s).voices = s.voices := (State.besideChannels_eq (finishReturn_besideChannels c s)).1
@[simp] theorem finishReturn_events (c : Fin 4) (s : State) :
    (finishReturn c s).events = s.events := (State.besideChannels_eq (finishReturn_besideChannels c s)).2.1
@[simp] theorem finishReturn_store (c : Fin 4) (s : State) :
    (finishReturn c s).store = s.store := (State.besideChannels_eq (finishReturn_besideChannels c s)).2.2.1
@[simp] theorem finishReturn_asrun (c : Fin 4) (s : State) :
    (finishReturn c s).asrun = s.asrun := (State.besideChannels_eq (finishReturn_besideChannels c s)).2.2.2
@[simp] theorem finishReturn_voice (c : Fin 4) (s : State) (v : Fin 16) :
    (finishReturn c s).voice v = s.voice v := voice_of_voices (finishReturn_voices c s) v
@[simp] theorem finishReturn_entry (c : Fin 4) (s : State) (k : Nat) :
    (finishReturn c s).entry k = s.entry k := entry_of_store (finishReturn_store c s) k
@[simp] theorem requestWithdraw_voices (c : Fin 4) (s : State) :
    (requestWithdraw c s).voices = s.voices := (State.besideChannels_eq (requestWithdraw_besideChannels c s)).1
@[simp] theorem requestWithdraw_events (c : Fin 4) (s : State) :
    (requestWithdraw c s).events = s.events := (State.besideChannels_eq (requestWithdraw_besideChannels c s)).2.1
@[simp] theorem requestWithdraw_store (c : Fin 4) (s : State) :
    (requestWithdraw c s).store = s.store := (State.besideChannels_eq (requestWithdraw_besideChannels c s)).2.2.1
@[simp] theorem requestWithdraw_asrun (c : Fin 4) (s : State) :
    (requestWithdraw c s).asrun = s.asrun := (State.besideChannels_eq (requestWithdraw_besideChannels c s)).2.2.2
@[simp] theorem requestWithdraw_voice (c : Fin 4) (s : State) (v : Fin 16) :
    (requestWithdraw c s).voice v = s.voice v := voice_of_voices (requestWithdraw_voices c s) v
@[simp] theorem requestWithdraw_entry (c : Fin 4) (s : State) (k : Nat) :
    (requestWithdraw c s).entry k = s.entry k := entry_of_store (requestWithdraw_store c s) k
@[simp] theorem requestOpen_voices (c : Fin 4) (level : Nat) (s : State) :
    (requestOpen c level s).2.voices = s.voices := (State.besideChannels_eq (requestOpen_besideChannels c level s)).1
@[simp] theorem requestOpen_events (c : Fin 4) (level : Nat) (s : State) :
    (requestOpen c level s).2.events = s.events := (State.besideChannels_eq (requestOpen_besideChannels c level s)).2.1
@[simp] theorem requestOpen_store (c : Fin 4) (level : Nat) (s : State) :
    (requestOpen c level s).2.store = s.store := (State.besideChannels_eq (requestOpen_besideChannels c level s)).2.2.1
@[simp] theorem requestOpen_asrun (c : Fin 4) (level : Nat) (s : State) :
    (requestOpen c level s).2.asrun = s.asrun := (State.besideChannels_eq (requestOpen_besideChannels c level s)).2.2.2
@[simp] theorem requestOpen_voice (c : Fin 4) (level : Nat) (s : State) (v : Fin 16) :
    (requestOpen c level s).2.voice v = s.voice v := voice_of_voices (requestOpen_voices c level s) v
@[simp] theorem requestOpen_entry (c : Fin 4) (level : Nat) (s : State) (k : Nat) :
    (requestOpen c level s).2.entry k = s.entry k := entry_of_store (requestOpen_store c level s) k
@[simp] theorem requestJoin_voices (c : Fin 4) (s : State) :
    (requestJoin c s).voices = s.voices := (State.besideChannels_eq (requestJoin_besideChannels c s)).1
@[simp] theorem requestJoin_events (c : Fin 4) (s : State) :
    (requestJoin c s).events = s.events := (State.besideChannels_eq (requestJoin_besideChannels c s)).2.1
@[simp] theorem requestJoin_store (c : Fin 4) (s : State) :
    (requestJoin c s).store = s.store := (State.besideChannels_eq (requestJoin_besideChannels c s)).2.2.1
@[simp] theorem requestJoin_asrun (c : Fin 4) (s : State) :
    (requestJoin c s).asrun = s.asrun := (State.besideChannels_eq (requestJoin_besideChannels c s)).2.2.2
@[simp] theorem requestJoin_voice (c : Fin 4) (s : State) (v : Fin 16) :
    (requestJoin c s).voice v = s.voice v := voice_of_voices (requestJoin_voices c s) v
@[simp] theorem requestJoin_entry (c : Fin 4) (s : State) (k : Nat) :
    (requestJoin c s).entry k = s.entry k := entry_of_store (requestJoin_store c s) k
@[simp] theorem requestEmergency_voices (c : Fin 4) (s : State) :
    (requestEmergency c s).2.voices = s.voices := (State.besideChannels_eq (requestEmergency_besideChannels c s)).1
@[simp] theorem requestEmergency_events (c : Fin 4) (s : State) :
    (requestEmergency c s).2.events = s.events := (State.besideChannels_eq (requestEmergency_besideChannels c s)).2.1
@[simp] theorem requestEmergency_store (c : Fin 4) (s : State) :
    (requestEmergency c s).2.store = s.store := (State.besideChannels_eq (requestEmergency_besideChannels c s)).2.2.1
@[simp] theorem requestEmergency_asrun (c : Fin 4) (s : State) :
    (requestEmergency c s).2.asrun = s.asrun := (State.besideChannels_eq (requestEmergency_besideChannels c s)).2.2.2
@[simp] theorem requestEmergency_voice (c : Fin 4) (s : State) (v : Fin 16) :
    (requestEmergency c s).2.voice v = s.voice v := voice_of_voices (requestEmergency_voices c s) v
@[simp] theorem requestEmergency_entry (c : Fin 4) (s : State) (k : Nat) :
    (requestEmergency c s).2.entry k = s.entry k := entry_of_store (requestEmergency_store c s) k
@[simp] theorem requestRecover_voices (c : Fin 4) (s : State) :
    (requestRecover c s).voices = s.voices := (State.besideChannels_eq (requestRecover_besideChannels c s)).1
@[simp] theorem requestRecover_events (c : Fin 4) (s : State) :
    (requestRecover c s).events = s.events := (State.besideChannels_eq (requestRecover_besideChannels c s)).2.1
@[simp] theorem requestRecover_store (c : Fin 4) (s : State) :
    (requestRecover c s).store = s.store := (State.besideChannels_eq (requestRecover_besideChannels c s)).2.2.1
@[simp] theorem requestRecover_asrun (c : Fin 4) (s : State) :
    (requestRecover c s).asrun = s.asrun := (State.besideChannels_eq (requestRecover_besideChannels c s)).2.2.2
@[simp] theorem requestRecover_voice (c : Fin 4) (s : State) (v : Fin 16) :
    (requestRecover c s).voice v = s.voice v := voice_of_voices (requestRecover_voices c s) v
@[simp] theorem requestRecover_entry (c : Fin 4) (s : State) (k : Nat) :
    (requestRecover c s).entry k = s.entry k := entry_of_store (requestRecover_store c s) k
@[simp] theorem requestEmergencyClear_voices (c : Fin 4) (s : State) :
    (requestEmergencyClear c s).voices = s.voices := (State.besideChannels_eq (requestEmergencyClear_besideChannels c s)).1
@[simp] theorem requestEmergencyClear_events (c : Fin 4) (s : State) :
    (requestEmergencyClear c s).events = s.events := (State.besideChannels_eq (requestEmergencyClear_besideChannels c s)).2.1
@[simp] theorem requestEmergencyClear_store (c : Fin 4) (s : State) :
    (requestEmergencyClear c s).store = s.store := (State.besideChannels_eq (requestEmergencyClear_besideChannels c s)).2.2.1
@[simp] theorem requestEmergencyClear_asrun (c : Fin 4) (s : State) :
    (requestEmergencyClear c s).asrun = s.asrun := (State.besideChannels_eq (requestEmergencyClear_besideChannels c s)).2.2.2
@[simp] theorem requestEmergencyClear_voice (c : Fin 4) (s : State) (v : Fin 16) :
    (requestEmergencyClear c s).voice v = s.voice v := voice_of_voices (requestEmergencyClear_voices c s) v
@[simp] theorem requestEmergencyClear_entry (c : Fin 4) (s : State) (k : Nat) :
    (requestEmergencyClear c s).entry k = s.entry k := entry_of_store (requestEmergencyClear_store c s) k
@[simp] theorem moveGain_voices (c : Fin 4) (s : State) :
    (moveGain c s).voices = s.voices := (State.besideChannels_eq (moveGain_besideChannels c s)).1
@[simp] theorem moveGain_events (c : Fin 4) (s : State) :
    (moveGain c s).events = s.events := (State.besideChannels_eq (moveGain_besideChannels c s)).2.1
@[simp] theorem moveGain_store (c : Fin 4) (s : State) :
    (moveGain c s).store = s.store := (State.besideChannels_eq (moveGain_besideChannels c s)).2.2.1
@[simp] theorem moveGain_asrun (c : Fin 4) (s : State) :
    (moveGain c s).asrun = s.asrun := (State.besideChannels_eq (moveGain_besideChannels c s)).2.2.2
@[simp] theorem moveGain_voice (c : Fin 4) (s : State) (v : Fin 16) :
    (moveGain c s).voice v = s.voice v := voice_of_voices (moveGain_voices c s) v
@[simp] theorem moveGain_entry (c : Fin 4) (s : State) (k : Nat) :
    (moveGain c s).entry k = s.entry k := entry_of_store (moveGain_store c s) k
@[simp] theorem clearSilence_voices (c : Fin 4) (s : State) :
    (clearSilence c s).voices = s.voices := (State.besideChannels_eq (clearSilence_besideChannels c s)).1
@[simp] theorem clearSilence_events (c : Fin 4) (s : State) :
    (clearSilence c s).events = s.events := (State.besideChannels_eq (clearSilence_besideChannels c s)).2.1
@[simp] theorem clearSilence_store (c : Fin 4) (s : State) :
    (clearSilence c s).store = s.store := (State.besideChannels_eq (clearSilence_besideChannels c s)).2.2.1
@[simp] theorem clearSilence_asrun (c : Fin 4) (s : State) :
    (clearSilence c s).asrun = s.asrun := (State.besideChannels_eq (clearSilence_besideChannels c s)).2.2.2
@[simp] theorem clearSilence_voice (c : Fin 4) (s : State) (v : Fin 16) :
    (clearSilence c s).voice v = s.voice v := voice_of_voices (clearSilence_voices c s) v
@[simp] theorem clearSilence_entry (c : Fin 4) (s : State) (k : Nat) :
    (clearSilence c s).entry k = s.entry k := entry_of_store (clearSilence_store c s) k
@[simp] theorem modRecord_voices (c : Fin 4) (n : Nat) (f : BreakRecord → BreakRecord) (s : State) :
    (modRecord c n f s).voices = s.voices := (State.besideChannels_eq (modRecord_besideChannels c n f s)).1
@[simp] theorem modRecord_events (c : Fin 4) (n : Nat) (f : BreakRecord → BreakRecord) (s : State) :
    (modRecord c n f s).events = s.events := (State.besideChannels_eq (modRecord_besideChannels c n f s)).2.1
@[simp] theorem modRecord_store (c : Fin 4) (n : Nat) (f : BreakRecord → BreakRecord) (s : State) :
    (modRecord c n f s).store = s.store := (State.besideChannels_eq (modRecord_besideChannels c n f s)).2.2.1
@[simp] theorem modRecord_asrun (c : Fin 4) (n : Nat) (f : BreakRecord → BreakRecord) (s : State) :
    (modRecord c n f s).asrun = s.asrun := (State.besideChannels_eq (modRecord_besideChannels c n f s)).2.2.2
@[simp] theorem modRecord_voice (c : Fin 4) (n : Nat) (f : BreakRecord → BreakRecord) (s : State) (v : Fin 16) :
    (modRecord c n f s).voice v = s.voice v := voice_of_voices (modRecord_voices c n f s) v
@[simp] theorem modRecord_entry (c : Fin 4) (n : Nat) (f : BreakRecord → BreakRecord) (s : State) (k : Nat) :
    (modRecord c n f s).entry k = s.entry k := entry_of_store (modRecord_store c n f s) k
@[simp] theorem modParts_voices (c : Fin 4) (n : Nat) (f : Part → Part) (s : State) :
    (modParts c n f s).voices = s.voices := (State.besideChannels_eq (modParts_besideChannels c n f s)).1
@[simp] theorem modParts_events (c : Fin 4) (n : Nat) (f : Part → Part) (s : State) :
    (modParts c n f s).events = s.events := (State.besideChannels_eq (modParts_besideChannels c n f s)).2.1
@[simp] theorem modParts_store (c : Fin 4) (n : Nat) (f : Part → Part) (s : State) :
    (modParts c n f s).store = s.store := (State.besideChannels_eq (modParts_besideChannels c n f s)).2.2.1
@[simp] theorem modParts_asrun (c : Fin 4) (n : Nat) (f : Part → Part) (s : State) :
    (modParts c n f s).asrun = s.asrun := (State.besideChannels_eq (modParts_besideChannels c n f s)).2.2.2
@[simp] theorem modParts_voice (c : Fin 4) (n : Nat) (f : Part → Part) (s : State) (v : Fin 16) :
    (modParts c n f s).voice v = s.voice v := voice_of_voices (modParts_voices c n f s) v
@[simp] theorem modParts_entry (c : Fin 4) (n : Nat) (f : Part → Part) (s : State) (k : Nat) :
    (modParts c n f s).entry k = s.entry k := entry_of_store (modParts_store c n f s) k
@[simp] theorem moveReturn_voices (c : Fin 4) (n : Nat) (x : AC) (cause : Cause) (s : State) :
    (moveReturn c n x cause s).voices = s.voices := (State.besideChannels_eq (moveReturn_besideChannels c n x cause s)).1
@[simp] theorem moveReturn_events (c : Fin 4) (n : Nat) (x : AC) (cause : Cause) (s : State) :
    (moveReturn c n x cause s).events = s.events := (State.besideChannels_eq (moveReturn_besideChannels c n x cause s)).2.1
@[simp] theorem moveReturn_store (c : Fin 4) (n : Nat) (x : AC) (cause : Cause) (s : State) :
    (moveReturn c n x cause s).store = s.store := (State.besideChannels_eq (moveReturn_besideChannels c n x cause s)).2.2.1
@[simp] theorem moveReturn_asrun (c : Fin 4) (n : Nat) (x : AC) (cause : Cause) (s : State) :
    (moveReturn c n x cause s).asrun = s.asrun := (State.besideChannels_eq (moveReturn_besideChannels c n x cause s)).2.2.2
@[simp] theorem moveReturn_voice (c : Fin 4) (n : Nat) (x : AC) (cause : Cause) (s : State) (v : Fin 16) :
    (moveReturn c n x cause s).voice v = s.voice v := voice_of_voices (moveReturn_voices c n x cause s) v
@[simp] theorem moveReturn_entry (c : Fin 4) (n : Nat) (x : AC) (cause : Cause) (s : State) (k : Nat) :
    (moveReturn c n x cause s).entry k = s.entry k := entry_of_store (moveReturn_store c n x cause s) k
@[simp] theorem refuseCart_voices (c : Fin 4) (s : State) :
    (refuseCart c s).voices = s.voices := (State.besideChannels_eq (refuseCart_besideChannels c s)).1
@[simp] theorem refuseCart_events (c : Fin 4) (s : State) :
    (refuseCart c s).events = s.events := (State.besideChannels_eq (refuseCart_besideChannels c s)).2.1
@[simp] theorem refuseCart_store (c : Fin 4) (s : State) :
    (refuseCart c s).store = s.store := (State.besideChannels_eq (refuseCart_besideChannels c s)).2.2.1
@[simp] theorem refuseCart_asrun (c : Fin 4) (s : State) :
    (refuseCart c s).asrun = s.asrun := (State.besideChannels_eq (refuseCart_besideChannels c s)).2.2.2
@[simp] theorem refuseCart_voice (c : Fin 4) (s : State) (v : Fin 16) :
    (refuseCart c s).voice v = s.voice v := voice_of_voices (refuseCart_voices c s) v
@[simp] theorem refuseCart_entry (c : Fin 4) (s : State) (k : Nat) :
    (refuseCart c s).entry k = s.entry k := entry_of_store (refuseCart_store c s) k

end Sys2Proof.Machine
end

section
/-! PROOFS. The steps due after a frame (R29, R31, R154, R159), and a command row before them. -/

namespace Sys2Proof.Machine

variable {s : State}

/-! ### What the steps leave -/

theorem reportIngest_cmd (n : Nat) (o : IngestOutcome) (l : Nat) (s : State) :
    (reportIngest n o l s).cmd = s.cmd := by
  rw [reportIngest, raiseAlert_eq]
  rfl

theorem reportIngest_engine (n : Nat) (o : IngestOutcome) (l : Nat) (s : State) :
    (reportIngest n o l s).store.engine = none := by
  rw [reportIngest, raiseAlert_eq]
  rfl

/-- The end of an ingest is a change of its entry and of the ring, reported. -/
theorem endIngest_reports (o : IngestOutcome) (s : State) :
    endIngest o s = s ∧ s.store.engine = none
      ∨ ∃ n o' l x, endIngest o s = reportIngest n o' l (s.setStore x) := by
  unfold endIngest
  split
  · next h => exact .inl ⟨rfl, h⟩
  · dsimp only
    split
    · exact .inr ⟨_, _, _, _, rfl⟩
    · split
      · exact .inr ⟨_, _, _, _, rfl⟩
      · exact .inr ⟨_, _, _, _, rfl⟩

/-- An end that is due is carried out, and nothing else happens. -/
theorem settleIngest_cases (s : State) :
    settleIngest s = s ∧ s.store.noEnding = true
      ∨ ∃ n o l x, settleIngest s = reportIngest n o l (s.setStore x) := by
  by_cases h : s.store.noEnding = true
  · exact .inl ⟨settleIngest_of_noEnding h, h⟩
  · right
    obtain ⟨g, o, hg, ho⟩ : ∃ g o, s.store.engine = some g ∧ g.ending = some o := by
      unfold Store.noEnding at h
      cases hg : s.store.engine with
      | none => simp [hg] at h
      | some g =>
        obtain ⟨o, ho⟩ := Option.ne_none_iff_exists'.1 (by simpa [hg] using h : g.ending ≠ none)
        exact ⟨g, o, rfl, ho⟩
    obtain ⟨-, idle⟩ | reports := endIngest_reports o s
    · rw [hg] at idle
      cases idle
    · rwa [settleIngest_of_ending hg ho]

theorem settleIngest_cmd (s : State) : (settleIngest s).cmd = s.cmd := by
  obtain ⟨same, -⟩ | ⟨n, o, l, x, ended⟩ := settleIngest_cases s
  · rw [same]
  · rw [ended, reportIngest_cmd]
    rfl

theorem settleIngest_noEnding (s : State) : (settleIngest s).store.noEnding = true := by
  obtain ⟨same, h⟩ | ⟨n, o, l, x, ended⟩ := settleIngest_cases s
  · rwa [same]
  · rw [Store.noEnding, ended, reportIngest_engine]

/-- The steps of channel c after a frame. -/
def settleChannel (c : Fin 4) (s : State) : State := beginRecovery c (reachSilence c s)

theorem settle_eq (s : State) : settle s = forChannels settleChannel (settleIngest s) := rfl

theorem settleChannel_around (c : Fin 4) (s : State) : (settleChannel c s).around c = s.around c := by
  rw [settleChannel, beginRecovery_around, reachSilence_around]

theorem settleChannel_same (c : Fin 4) (s : State) : s.SameAround c (settleChannel c s) :=
  State.sameAround_of_eq (settleChannel_around c s)

theorem settle_cmd (s : State) : (settle s).cmd = s.cmd := by
  rw [settle_eq, forChannels_keeps State.cmd _ (fun c s => (settleChannel_same c s).cmd),
    settleIngest_cmd]

/-! ### What they make so -/

theorem noEnding_of_same {c : Fin 4} {t : State} (h : s.SameAround c t) :
    t.store.noEnding = s.store.noEnding := by
  have engine := congrArg Store.engine h.store
  dsimp only at engine
  rw [Store.noEnding, Store.noEnding, engine]

theorem claimOne_ch {d : Fin 4} {p : Purpose} {clip : Nat} {v : Fin 16} {t : State}
    (h : claimOne d p clip s = .ok (v, t)) (c : Fin 4) : t.ch c = s.ch c :=
  ch_of_chans (State.besideVoices_eq (claimOne_besideVoices h)).1 c

theorem setMonitor_ch (c : Fin 4) (m : Monitor) (s : State) :
    (s.setMonitor c m).ch c = { s.ch c with monitor := m } := State.ch_setCh_same s c _

theorem setChannelState_ch (c : Fin 4) (new : ChannelState) (s : State) :
    (setChannelState c new s).ch c = { s.ch c with state := new } := by
  unfold setChannelState
  dsimp only
  split
  · exact State.ch_setCh_same ..
  · rw [raiseAlert_ch, State.ch_setCh_same]

theorem fadeGain_ch (c : Fin 4) (level j : Nat) (s : State) : (fadeGain c level j s).ch c =
    { s.ch c with
      gain := if j = 0 then min level Config.maxCode else (s.ch c).gain
      gainTarget := min level Config.maxCode
      gainRate := fadeRate (distance (min level Config.maxCode) (s.ch c).gain) j } :=
  State.ch_setCh_same ..

theorem requestEmergency_monitor (c : Fin 4) (s : State) :
    ((requestEmergency c s).2.ch c).monitor = (s.ch c).monitor := by
  unfold requestEmergency
  dsimp only
  split
  · rfl
  · rw [fadeGain_ch, setChannelState_ch, State.ch_setCh_same]

theorem startEmergency_limitReached (c : Fin 4) (clip : Nat) (s : State) :
    ((startEmergency c clip s).ch c).monitor.limitReached = (s.ch c).monitor.limitReached := by
  unfold startEmergency
  split
  · rw [setMonitor_ch]
    rfl
  · next v t h =>
    have claimed := claimOne_ch h c
    dsimp only
    split
    · rw [setMonitor_ch]
      simp only [State.mon, primeVoice_ch, requestEmergency_monitor, claimed]
    · rw [releaseVoice_ch, claimed]

theorem attemptFill_limitReached (c : Fin 4) (s : State) :
    ((attemptFill c s).ch c).monitor.limitReached = (s.ch c).monitor.limitReached := by
  unfold attemptFill
  dsimp only
  split
  · split
    · exact startEmergency_limitReached ..
    · rfl
  · rfl

theorem reachSilence_done (c : Fin 4) (s : State) : (reachSilence c s).silenceDue c = false := by
  unfold reachSilence
  split
  · simp only [State.silenceDue, attemptFill_limitReached, raiseAlert_ch, setMonitor_ch,
      Bool.false_and]
  · next h => exact Bool.eq_false_iff.2 h

theorem requestRecover_kept (c : Fin 4) (s : State) :
    ((requestRecover c s).ch c).monitor = (s.ch c).monitor
      ∧ ((requestRecover c s).ch c).config = (s.ch c).config := by
  unfold requestRecover
  dsimp only
  split
  · rw [fadeGain_ch, State.ch_setCh_same]
    exact ⟨rfl, rfl⟩
  · exact ⟨rfl, rfl⟩

/-- The start of a recovery leaves the level of SILENCE, and the phase is no longer COVERING. -/
theorem beginRecovery_due (c : Fin 4) {s : State} (h : s.silenceDue c = false) :
    (beginRecovery c s).silenceDue c = false ∧ (beginRecovery c s).recoveryDue c = false := by
  unfold beginRecovery
  split
  · dsimp only
    split
    · next r _ =>
      have faded := fadeToZero_ch r.voice (s.ch c).config.joinFade s c
      simpa [State.silenceDue, State.recoveryDue, setMonitor_ch, State.mon, requestRecover_kept,
        faded] using h
    · simpa [State.silenceDue, State.recoveryDue, setMonitor_ch, State.mon, requestRecover_kept]
        using h
  · next due => exact ⟨h, Bool.eq_false_iff.2 due⟩

/-- A channel's steps leave nothing due on it. -/
theorem settleChannel_done (c : Fin 4) (s : State) :
    (settleChannel c s).silenceDue c = false ∧ (settleChannel c s).recoveryDue c = false :=
  beginRecovery_due c (reachSilence_done c s)

/-- What each channel's step makes so and the others keep holds of every channel after all four. -/
theorem forChannels_establishes {P : Fin 4 → State → Prop} {f : Fin 4 → State → State}
    (done : ∀ c s, P c (f c s)) (kept : ∀ c d s, d ≠ c → P d s → P d (f c s)) (s : State)
    (c : Fin 4) : P c (forChannels f s) := by
  have later (l : List (Fin 4)) (u : State) (hu : P c u ∨ c ∈ l) :
      P c (l.foldl (fun t d => f d t) u) := by
    induction l generalizing u with
    | nil => exact hu.resolve_right List.not_mem_nil
    | cons d l ih =>
      refine ih (f d u) ?_
      by_cases hd : c = d
      · exact .inl (hd ▸ done c u)
      · exact hu.imp (kept d c u hd) fun h => (List.mem_cons.1 h).resolve_left hd
  exact later allChannels s (.inr (by fin_cases c <;> decide))

theorem settle_settled (s : State) : (settle s).settled = true := by
  have due {c d : Fin 4} {u : State} (hd : d ≠ c) :
      (settleChannel c u).silenceDue d = u.silenceDue d
        ∧ (settleChannel c u).recoveryDue d = u.recoveryDue d := by
    have same := (settleChannel_same c u).ch d hd
    simp only [State.silenceDue, State.recoveryDue, same, and_self]
  have none_due := forChannels_establishes (f := settleChannel)
    (P := fun c u => u.silenceDue c = false ∧ u.recoveryDue c = false) settleChannel_done
    (fun c d u hd h => ⟨(due hd).1.trans h.1, (due hd).2.trans h.2⟩) (settleIngest s)
  rw [State.settled, settle_eq, forChannels_keeps (fun t : State => t.store.noEnding) settleChannel
    (fun c u => noEnding_of_same (settleChannel_same c u)), settleIngest_noEnding, Bool.true_and,
    List.all_eq_true]
  intro c _
  rw [(none_due c).1, (none_due c).2]
  rfl

/-- Settles O38: the steps leave nothing due, and a row does them before its command. -/
theorem dueStepsComeBeforeTheCommand : Obligations.DueStepsComeBeforeTheCommand := by
  refine ⟨settle_settled, fun s => settle_of_settled, fun s row always f due => ?_⟩
  have still_due : (settle s).commandDue row = true := by
    rw [State.commandDue, settle_cmd]
    exact due
  rw [runRow, runRow, if_pos due, if_pos still_due, settle_of_settled (settle_settled s)]

end Sys2Proof.Machine
end

section
/-! PROOFS. How long a clip airs (R52, R53), and how long a timed fade takes (R57, R58). -/

namespace Sys2Proof.Machine

open Claim

/-! ### The frames a clip airs -/

/-- A voice k moves after position 0: at k steps while they lie before the clip's end, at the end
afterwards. -/
structure MovedFrom (x : Voice) (length k : Nat) (y : Voice) : Prop where
  step : y.step = x.step
  loop : y.loop = none
  before : k * x.step < length * 65536 →
    y.index * 65536 + y.fraction = k * x.step ∧ y.fraction < 65536
  after : length * 65536 ≤ k * x.step → y.index = length

theorem movedFrom_iterate {x : Voice} (length : Nat) (hi : x.index = 0) (hf : x.fraction = 0)
    (hl : x.loop = none) (k : Nat) :
    MovedFrom x length k ((fun y : Voice => y.advance length)^[k] x) := by
  induction k with
  | zero =>
    refine ⟨rfl, hl, fun _ => ?_, fun h => ?_⟩
    · rw [Function.iterate_zero_apply, hi, hf]
      omega
    · rw [Function.iterate_zero_apply, hi]
      omega
  | succ k ih =>
    rw [Function.iterate_succ_apply']
    generalize (fun y : Voice => y.advance length)^[k] x = y at ih
    obtain ⟨step, loop, before, after⟩ := ih
    have next : (k + 1) * x.step = k * x.step + x.step := Nat.succ_mul ..
    obtain inside | atEnd := Nat.lt_or_ge (y.index + (y.fraction + y.step) / 65536) length
    · rw [advance_inside loop inside]
      refine ⟨step, loop, fun h => ?_, fun h => ?_⟩
      · obtain ⟨position, small⟩ := before (by omega)
        refine ⟨?_, Nat.mod_lt _ (by decide)⟩
        have sum := Nat.div_add_mod (y.fraction + y.step) 65536
        dsimp only
        rw [next, ← position, Nat.add_mul]
        linarith
      · exfalso
        by_cases hk : k * x.step < length * 65536
        · obtain ⟨position, small⟩ := before hk
          omega
        · have := after (by omega)
          omega
    · rw [advance_atEnd loop atEnd]
      refine ⟨step, loop, fun h => ?_, fun _ => rfl⟩
      obtain ⟨position, small⟩ := before (by omega)
      omega

theorem ranOff_iff {x : Voice} {length k : Nat} {y : Voice} (h : MovedFrom x length k y) :
    y.ranOff length = true ↔ length * 65536 ≤ k * x.step := by
  obtain ⟨-, loop, before, after⟩ := h
  simp only [Voice.ranOff, loop, Option.isNone_none, Bool.true_and, decide_eq_true_eq]
  refine ⟨fun off => ?_, fun far => (after far).ge⟩
  by_contra near
  obtain ⟨position, small⟩ := before (by omega)
  omega

theorem framesAired_areExact : framesAiredAreExact := by
  intro x length k hi hf hl hs
  rw [ranOff_iff (movedFrom_iterate length hi hf hl k), Nat.div_le_iff_le_mul hs, Nat.mul_comm k]
  omega

/-! ### The boundaries a timed fade takes -/

theorem moveToward_iterate_down {target rate : Nat} (k : Nat) {c : Nat} (h : target ≤ c) :
    (fun c => moveToward c target rate)^[k] c = max (c - k * rate) target := by
  induction k with
  | zero => simp; omega
  | succ k ih =>
    rw [Function.iterate_succ_apply', ih, moveToward, if_neg (by omega), Nat.succ_mul]
    omega

theorem moveToward_iterate_up {target rate : Nat} (k : Nat) {c : Nat} (h : c ≤ target) :
    (fun c => moveToward c target rate)^[k] c = min (c + k * rate) target := by
  induction k with
  | zero => simp; omega
  | succ k ih =>
    rw [Function.iterate_succ_apply', ih, moveToward, Nat.succ_mul]
    split <;> omega

theorem fadeRate_eq {d j : Nat} (hj : 0 < j) :
    fadeRate d j = max 1 (ceilDiv d (min (max j 17) 1023)) := by
  rw [fadeRate, fadeBlocks, if_neg (by omega), clampNat]

theorem le_mul_ceilDiv (d : Nat) {b : Nat} (hb : 0 < b) : d ≤ b * ceilDiv d b := by
  have sum := Nat.div_add_mod (d + b - 1) b
  have small := Nat.mod_lt (d + b - 1) hb
  rw [ceilDiv]
  omega

/-- A fade over its blocks covers its distance. -/
theorem fadeRate_covers (d : Nat) {j : Nat} (hj : 0 < j) :
    d ≤ min (max j 17) 1023 * fadeRate d j := by
  rw [fadeRate_eq hj]
  exact (le_mul_ceilDiv d (by omega)).trans (Nat.mul_le_mul_left _ (le_max_right ..))

theorem fadeRate_le {d j : Nat} (hd : d ≤ 4095) (hj : 0 < j) : fadeRate d j ≤ 241 := by
  rw [fadeRate_eq hj, ceilDiv]
  generalize hb : min (max j 17) 1023 = b
  have : (d + b - 1) / b < 242 := (Nat.div_lt_iff_lt_mul (by omega)).2 (by omega)
  omega

theorem timedFades_arriveInTime : timedFadesArriveInTime := by
  intro code target j hc ht hj
  dsimp only [zeroRamp, levelRamp]
  have zero := fadeRate_covers code hj
  have level := fadeRate_covers (distance target code) hj
  refine ⟨?_, fun c => ?_, ?_, fadeRate_le ?_ hj⟩
  · rw [moveToward_iterate_down _ (Nat.zero_le _)]
    omega
  · rw [moveToward, if_neg (Nat.not_lt_zero _)]
    omega
  · unfold distance at level ⊢
    obtain up | down := Nat.le_total code target
    · rw [moveToward_iterate_up _ up]
      omega
    · rw [moveToward_iterate_down _ down]
      omega
  · unfold distance
    omega

/-- Settles O25. -/
theorem clipsAndFadesEndInTime : Obligations.ClipsAndFadesEndInTime :=
  ⟨framesAired_areExact, timedFades_arriveInTime⟩

end Sys2Proof.Machine
end

section
/-! PROOFS. Fields read from bytes put together (R195 to R200). -/

namespace Sys2Proof.Machine

theorem field_cons_succ (b : Byte) (l : List Byte) (off n : Nat) :
    field (b :: l) (off + 1) n = field l off n := rfl

theorem field_toBytes_append (x k : Nat) (l : List Byte) :
    field (toBytes x k ++ l) 0 k = x % 256 ^ k := by
  rw [field_append_left _ _ (by rw [toBytes_length, Nat.zero_add]), field_toBytes]

theorem field_skip (x : Nat) (l : List Byte) {k off n : Nat} (h : k ≤ off) :
    field (toBytes x k ++ l) off n = field l (off - k) n := by
  rw [field_append_right _ _ (by rwa [toBytes_length]), toBytes_length]

theorem byteAt_skip (x : Nat) (l : List Byte) {k off : Nat} (h : k ≤ off) :
    byteAt (toBytes x k ++ l) off = byteAt l (off - k) := by
  rw [byteAt_append_right _ _ (by rwa [toBytes_length]), toBytes_length]

theorem field_one_cons (b : Byte) (l : List Byte) : field (b :: l) 0 1 = b.toNat :=
  (field_one (b :: l) (Nat.succ_pos _)).trans (byteAt_cons_zero b l)

/-- A field of a list of bytes given one by one and by numbers reads back. -/
theorem field_toBytes_of_lt {x k : Nat} (l : List Byte) (h : x < 256 ^ k) :
    field (toBytes x k ++ l) 0 k = x := by rw [field_toBytes_append, Nat.mod_eq_of_lt h]

theorem field_byte (l : List Byte) (off : Nat) : field l off 1 = byteAt l off := by
  obtain inside | past := Nat.lt_or_ge off l.length
  · exact field_one l inside
  · rw [field, byteAt, List.drop_of_length_le past, List.getD_eq_default _ _ past]
    rfl

end Sys2Proof.Machine
end

section
/-! PROOFS. Network cues (R93 to R100): a cue packet taken, counted and acted on. -/

namespace Sys2Proof.Machine

open Claim

variable {s : State} {payload : List Byte} {ref : AC} {rest : List Routed}

/-! ### A cue that arrived -/

/-- The row of a cue's kind takes the cue and decodes it. -/
theorem takeRow_cue {k : CueKind} {f : List Byte → AC → State → State}
    (h : cueArrived s payload ref rest) (hk : cueKind payload = k) :
    takeRow (isCue k) (fun r u => f r.payload r.ref (countCue u)) s =
      .next (f payload ref (counted s rest)) := by
  obtain ⟨settled, dest, src, inbox⟩ := h
  have oldest : s.oldestRouted (isCue k) = some ⟨.cue, dest, src, payload, ref⟩ := by
    simp [State.oldestRouted, inbox, isCue, hk]
  have popped : countCue (popRouted (settle s)) = counted s rest := by
    rw [settle_of_settled settled, popRouted, inbox]
    rfl
  simp only [takeRow, oldest, popped]

theorem exec_openCue_arrived (h : cueArrived s payload ref rest) (hk : cueKind payload = .openCue) :
    exec .openCue s = .next (decodeOpen payload ref (counted s rest)) :=
  (exec_openCue s).trans (takeRow_cue h hk)

theorem exec_closeCue_arrived (h : cueArrived s payload ref rest)
    (hk : cueKind payload = .closeCue) :
    exec .closeCue s = .next (decodeClose payload ref (counted s rest)) :=
  (exec_closeCue s).trans (takeRow_cue h hk)

theorem exec_recordStart_arrived (h : cueArrived s payload ref rest)
    (hk : cueKind payload = .recordStart) :
    exec .recordStart s = .next (decodeRecordStart payload ref (counted s rest)) :=
  (exec_recordStart s).trans (takeRow_cue h hk)

theorem exec_recordStop_arrived (h : cueArrived s payload ref rest)
    (hk : cueKind payload = .recordStop) :
    exec .recordStop s = .next (decodeRecordStop payload ref (counted s rest)) :=
  (exec_recordStop s).trans (takeRow_cue h hk)

theorem exec_timeMark_arrived (h : cueArrived s payload ref rest)
    (hk : cueKind payload = .timeMark) :
    exec .timeMark s = .next (decodeTimeMark payload ref (counted s rest)) :=
  (exec_timeMark s).trans (takeRow_cue h hk)

theorem exec_unknownCue_arrived (h : cueArrived s payload ref rest)
    (hk : cueKind payload = .unknown) :
    exec .unknownCue s = .next (decodeUnknown payload (counted s rest)) :=
  (exec_unknownCue s).trans (takeRow_cue (f := fun p _ u => decodeUnknown p u) h hk)

/-! ### TIME_MARK and unknown cues (R99, R94) -/

theorem cueKind_unknown {kind : Byte} (more : List Byte) (h : kind.toNat = 0 ∨ 5 < kind.toNat) :
    cueKind (kind :: more) = .unknown := by
  unfold cueKind
  simp only [List.head?_cons]
  split <;> simp_all

theorem timeMark_isCaptured : timeMarkIsCaptured := by
  refine ⟨fun s seconds frame mask fill ref rest hs hf h => ?_,
    fun s kind more ref rest hk h => ?_, fun s ref rest h => ?_⟩
  · rw [exec_timeMark_arrived h rfl, decodeTimeMark]
    simp only [List.cons_append, List.nil_append, List.append_assoc, List.length_cons,
      List.length_append, toBytes_length, field_cons_succ]
    rw [field_toBytes_of_lt _ (by omega), field_skip _ _ (by decide), field_skip _ _ (by decide),
      field_toBytes, Nat.mod_eq_of_lt (by omega), if_neg (by omega)]
    rfl
  · rw [exec_unknownCue_arrived h (cueKind_unknown more hk)]
    rfl
  · rw [exec_unknownCue_arrived h rfl]
    rfl

theorem malformedCues_areCounted : malformedCuesAreCounted := by
  intro s row kind more ref rest hrow h bad
  simp only [List.mem_cons, Prod.mk.injEq, List.not_mem_nil, or_false] at hrow
  obtain ⟨rfl, rfl⟩ | ⟨rfl, rfl⟩ | ⟨rfl, rfl⟩ | ⟨rfl, rfl⟩ | ⟨rfl, rfl⟩ := hrow
  · rw [exec_openCue_arrived h rfl, decodeOpen, openVisits]
    dsimp only
    rw [field_byte, if_pos (by simpa [cueMalformed] using bad)]
    rfl
  · rw [exec_closeCue_arrived h rfl, decodeClose, closeVisits]
    dsimp only
    rw [field_byte, if_pos (by simpa [cueMalformed] using bad)]
    rfl
  · rw [exec_recordStart_arrived h rfl, decodeRecordStart]
    dsimp only
    rw [if_pos (by simpa [cueMalformed] using bad)]
    rfl
  · rw [exec_recordStop_arrived h rfl, decodeRecordStop]
    dsimp only
    rw [if_pos (by simpa [cueMalformed] using bad)]
    rfl
  · rw [exec_timeMark_arrived h rfl, decodeTimeMark]
    dsimp only
    rw [if_pos (by simpa [cueMalformed] using bad)]
    rfl

/-- Settles O36: the cues that change the time mark or a count only. -/
theorem timeMarkIsCaptured : Obligations.TimeMarkIsCaptured :=
  ⟨timeMark_isCaptured, malformedCues_areCounted⟩

/-! ### OPEN and CLOSE (R95, R96) -/

theorem maskChannels_single (c : Fin 4) : maskChannels (2 ^ c.val) = [c] := by
  fin_cases c <;> decide

theorem maskByte (c : Fin 4) : (BitVec.ofNat 8 (2 ^ c.val)).toNat = 2 ^ c.val := by
  fin_cases c <;> decide

theorem openVisits_eq (c : Fin 4) {key offset window : Nat} (ref : AC) (hk : key < 2 ^ 32)
    (ho : offset ≤ 480000) (hw : window ≤ 14400000) :
    openVisits ([1, BitVec.ofNat 8 (2 ^ c.val)] ++ toBytes key 4 ++ toBytes offset 4
      ++ toBytes window 4) ref = some ([c], openChannel ref key offset window) := by
  have low : 2 ^ c.val ≤ 8 := by fin_cases c <;> decide
  unfold openVisits
  simp only [List.cons_append, List.nil_append, List.append_assoc, List.length_cons,
    List.length_append, toBytes_length, field_cons_succ]
  rw [field_byte, byteAt_cons_zero, maskByte, field_toBytes_of_lt _ (by omega),
    field_skip _ _ (by decide), field_toBytes_of_lt _ (by omega), field_skip _ _ (by decide),
    field_skip _ _ (by decide), field_toBytes, Nat.mod_eq_of_lt (by omega), if_neg (by omega),
    maskChannels_single]

theorem closeVisits_eq (c : Fin 4) {key offset : Nat} (ref : AC) (hk : key < 2 ^ 32)
    (ho : offset ≤ 480000) :
    closeVisits ([2, BitVec.ofNat 8 (2 ^ c.val)] ++ toBytes key 4 ++ toBytes offset 4) ref =
      some ([c], closeChannel (plusFrames ref offset) key) := by
  have low : 2 ^ c.val ≤ 8 := by fin_cases c <;> decide
  unfold closeVisits
  simp only [List.cons_append, List.nil_append, List.length_cons, List.length_append,
    toBytes_length, field_cons_succ]
  rw [field_byte, byteAt_cons_zero, maskByte, field_toBytes_of_lt _ (by omega),
    field_skip _ _ (by decide), field_toBytes, Nat.mod_eq_of_lt (by omega), if_neg (by omega),
    maskChannels_single]

theorem openChannel_of_free {c : Fin 4} {key : Nat} {r : BreakRecord} (ref : AC)
    (offset window : Nat) (hr : (s.ch c).queue.find? (BreakRecord.answersCue key) = some r)
    (free : s.freeForBreak c = true) : openChannel ref key offset window c s =
      (acceptTrigger c r.number (openStart ref offset)
        (openDeadline ref offset window r.window) false s).2 := by
  have he : (s.ch c).config.enable = true := by
    simp only [State.freeForBreak, Bool.and_eq_true] at free
    exact free.1.1
  rw [openChannel, if_neg (by rw [he]; decide), hr]
  exact if_pos free

/-- Settles O33: the decoder visits channel c, and the visit is one of the four. -/
theorem openCueTriggersTheBreak : Obligations.OpenCueTriggersTheBreak := by
  intro c s key offset window ref rest hk ho hw h
  have run : exec .openCue s = .next (openChannel ref key offset window c (counted s rest)) := by
    rw [exec_openCue_arrived h rfl, decodeOpen, openVisits_eq c ref hk ho hw]
    rfl
  have enabled {x : Bool} (he : (s.ch c).config.enable = x) :
      ((counted s rest).ch c).config.enable = x := he
  refine ⟨fun he => ?_, fun he hn => ?_, fun r he hr busy => ?_, fun r hr free => ?_⟩
  · rw [run, openChannel, if_pos (enabled he)]
  · have none_found : ((counted s rest).ch c).queue.find? (BreakRecord.answersCue key) = none := hn
    rw [run, openChannel, if_neg (by rw [enabled he]; decide), none_found]
    rfl
  · have found : ((counted s rest).ch c).queue.find? (BreakRecord.answersCue key) = some r := hr
    have busy : (counted s rest).freeForBreak c = false := busy
    rw [run, openChannel, if_neg (by rw [enabled he]; decide), found]
    dsimp only
    rw [busy]
    rfl
  · have found : ((counted s rest).ch c).queue.find? (BreakRecord.answersCue key) = some r := hr
    rw [run, openChannel_of_free ref offset window found free]
    rfl

theorem closeFits_iff (key : Nat) (r : BreakRecord) :
    closeFits key r = true ↔ key = 0 ∨ r.trigger = .cue key := by
  unfold closeFits
  cases r.trigger <;> simp

/-- Settles O34: the decoder visits channel c, and the close moves X or finds no break. -/
theorem closeCueMovesTheReturn : Obligations.CloseCueMovesTheReturn := by
  intro c s key offset ref rest hk ho he h
  have run : exec .closeCue s =
      .next (closeChannel (plusFrames ref offset) key c (counted s rest)) := by
    rw [exec_closeCue_arrived h rfl, decodeClose, closeVisits_eq c ref hk ho]
    rfl
  have enabled : ¬((counted s rest).ch c).config.enable = false := by
    rw [show ((counted s rest).ch c).config.enable = true from he]
    decide
  refine ⟨fun r p hr hs hp fits before ahead => ?_, fun none_fits => ?_⟩
  · have flight : (counted s rest).flight c = some r := hr
    have ret : r.ret = some p.ret := by simp [BreakRecord.ret, hp]
    rw [run, closeChannel, if_neg enabled, flight]
    dsimp only
    rw [if_pos ((closeFits_iff key r).2 fits), closeBreak, flight]
    dsimp only
    rw [hs, ret]
    dsimp only
    rw [if_pos (by exact before), if_pos (by exact ahead)]
    rfl
  · rw [run, closeChannel, if_neg enabled]
    obtain hn | ⟨r, hr, hkey, htrigger⟩ := none_fits
    · have flight : (counted s rest).flight c = none := hn
      rw [flight]
      rfl
    · have flight : (counted s rest).flight c = some r := hr
      rw [flight]
      dsimp only
      rw [if_neg (fun fits => ((closeFits_iff key r).1 fits).elim hkey htrigger)]
      rfl

/-! ### RECORD_START and RECORD_STOP (R97, R98) -/

theorem startIngest_library {a : Arm} (start : Option (AC × AC))
    (h : (s.entry a.clip).region = .library) :
    startIngest a start s =
      (s.setEntry a.clip { s.entry a.clip with state := .filling }).setStore
        { (s.setEntry a.clip { s.entry a.clip with state := .filling }).store with
          armList := s.store.armList.filter fun x => x.clip != a.clip
          engine := some ⟨a, 0, 0, start, none, [], none⟩ } := by
  unfold startIngest
  simp only [h, reduceCtorEq, if_false, false_and]
  rfl

theorem cutBack_of_ahead {stop : AC} {l : List Captured} (width words failed : Nat)
    (h : ∀ f ∈ l, acAtOrAfter f.carrying stop = false) :
    cutBack stop width l words failed = (l, words, failed) := by
  cases l with
  | nil => rfl
  | cons f l => rw [cutBack, h f List.mem_cons_self, if_neg Bool.false_ne_true]

/-- What RECORD_START does with the store's answer (R97). -/
def recordStarted (a : RecordAnswer × State) : State :=
  match a with
  | (.taken, s) => s
  | (.busy, s) => modCues (fun q => { q with recordBusy := bump q.recordBusy }) s
  | (.unmatched, s) => modCues (fun q => { q with recordUnmatched := bump q.recordUnmatched }) s

/-- What RECORD_STOP does with the store's answer (R98). -/
def recordStopped (a : RecordAnswer × State) : State :=
  match a with
  | (.unmatched, s) => modCues (fun q => { q with recordUnmatched := bump q.recordUnmatched }) s
  | (_, s) => s

theorem decodeRecordStart_inRange (key : BitVec 32) {offset : Nat} (mask : Byte) (ref : AC)
    (s : State) (ho : offset ≤ 480000) :
    decodeRecordStart ([3, mask] ++ toBytes key.toNat 4 ++ toBytes offset 4) ref s =
      recordStarted (storeRecordStart key (plusFrames ref offset) ref s) := by
  have small := key.isLt
  unfold decodeRecordStart
  simp only [List.cons_append, List.nil_append, List.length_cons, List.length_append,
    toBytes_length, field_cons_succ]
  rw [field_toBytes_of_lt _ (by omega), field_skip _ _ (by decide), field_toBytes,
    Nat.mod_eq_of_lt (by omega), if_neg (by omega), BitVec.ofNat_toNat, BitVec.setWidth_eq]
  rfl

theorem decodeRecordStop_inRange (key : BitVec 32) {offset : Nat} (mask : Byte) (ref : AC)
    (s : State) (ho : offset ≤ 480000) :
    decodeRecordStop ([4, mask] ++ toBytes key.toNat 4 ++ toBytes offset 4) ref s =
      recordStopped (storeRecordStop key (plusFrames ref offset) s) := by
  have small := key.isLt
  unfold decodeRecordStop
  simp only [List.cons_append, List.nil_append, List.length_cons, List.length_append,
    toBytes_length, field_cons_succ]
  rw [field_toBytes_of_lt _ (by omega), field_skip _ _ (by decide), field_toBytes,
    Nat.mod_eq_of_lt (by omega), if_neg (by omega), BitVec.ofNat_toNat, BitVec.setWidth_eq]
  rfl

section
variable {key : BitVec 32} (start ref : AC)

theorem storeRecordStart_unmatched
    (h : s.store.armList.find? (fun a => (s.entry a.clip).spotKey == key) = none) :
    storeRecordStart key start ref s = (.unmatched, s) := by simp only [storeRecordStart, h]

theorem storeRecordStart_busy {a : Arm}
    (h : s.store.armList.find? (fun a => (s.entry a.clip).spotKey == key) = some a)
    (busy : s.store.engine.isSome = true) : storeRecordStart key start ref s = (.busy, s) := by
  simp only [storeRecordStart, h, if_pos busy]

theorem storeRecordStart_taken {a : Arm}
    (h : s.store.armList.find? (fun a => (s.entry a.clip).spotKey == key) = some a)
    (idle : s.store.engine = none) :
    storeRecordStart key start ref s = (.taken, startIngest a (some (start, ref)) s) := by
  simp only [storeRecordStart, h, idle, Option.isSome_none, Bool.false_eq_true, if_false]

end

theorem storeRecordStop_idle {key : BitVec 32} (stop : AC) (idle : s.store.engine = none) :
    storeRecordStop key stop s = (.unmatched, s) := by simp only [storeRecordStop, idle]

theorem storeRecordStop_ahead {key : BitVec 32} {stop : AC} {g : Ingest}
    (hg : s.store.engine = some g) (hstop : g.stop = none)
    (hkey : (s.entry g.arm.clip).spotKey = key)
    (captured : ∀ f ∈ g.captured, acAtOrAfter f.carrying stop = false)
    (last : ∀ x, s.tx.lastCarrying = some x → acAtOrBefore stop x = false) :
    storeRecordStop key stop s =
      (.taken, s.setStore { s.store with engine := some { g with stop := some stop } }) := by
  have mine : ¬((s.entry g.arm.clip).spotKey ≠ key ∨ g.stop.isSome = true) := by
    rw [hstop]
    exact fun h => h.elim (fun h => h hkey) (fun h => absurd h (by decide))
  unfold storeRecordStop
  rw [hg]
  dsimp only
  rw [if_neg mine, cutBack_of_ahead _ _ _ captured]
  dsimp only
  rw [State.setStore_tx]
  cases hl : s.tx.lastCarrying with
  | none => simp
  | some x => simp [last x hl]

/-- Settles O35: the store's answer to each cue. -/
theorem recordingCuesStartAndStop : Obligations.RecordingCuesStartAndStop := by
  refine ⟨fun s key offset mask ref rest ho h => ?_, fun s key offset mask ref rest ho h => ?_⟩
  · have run := exec_recordStart_arrived h rfl
    rw [decodeRecordStart_inRange key mask ref (counted s rest) ho] at run
    refine ⟨fun hn => ?_, fun a ha busy => ?_, fun a ha idle hl => ?_⟩
    · have answer : storeRecordStart key (plusFrames ref offset) ref (counted s rest) =
          (.unmatched, counted s rest) := storeRecordStart_unmatched _ _ hn
      rw [run, answer]
      rfl
    · have answer : storeRecordStart key (plusFrames ref offset) ref (counted s rest) =
          (.busy, counted s rest) := storeRecordStart_busy _ _ ha busy
      rw [run, answer]
      rfl
    · have answer : storeRecordStart key (plusFrames ref offset) ref (counted s rest) =
          (.taken, startIngest a (some (plusFrames ref offset, ref)) (counted s rest)) :=
        storeRecordStart_taken _ _ ha idle
      rw [run, answer, startIngest_library _ (by exact hl)]
      rfl
  · have run := exec_recordStop_arrived h rfl
    rw [decodeRecordStop_inRange key mask ref (counted s rest) ho] at run
    refine ⟨fun idle => ?_, fun g hg hstop hkey captured last => ?_⟩
    · have answer : storeRecordStop key (plusFrames ref offset) (counted s rest) =
          (.unmatched, counted s rest) := storeRecordStop_idle _ idle
      rw [run, answer]
      rfl
    · have answer : storeRecordStop key (plusFrames ref offset) (counted s rest) = _ :=
        storeRecordStop_ahead hg hstop hkey captured last
      rw [run, answer]
      rfl

end Sys2Proof.Machine
end

section
/-! PROOFS. Packets at the command unit (R178 to R181, R185). -/

namespace Sys2Proof.Machine

open Claim

variable {s : State} {rest : List Routed}

/-! ### The header of a command (R177, R196) -/

theorem headerBytes_length (h : CmdHeader) : (headerBytes h).length = 8 := by
  simp [headerBytes, toBytes_length]

/-- The flag byte of a header. -/
theorem headerFlags (ack peek : Bool) :
    (BitVec.ofNat 8 ((if ack then 1 else 0) + if peek then 2 else 0)).getLsbD 0 = ack
      ∧ (BitVec.ofNat 8 ((if ack then 1 else 0) + if peek then 2 else 0)).getLsbD 1 = peek := by
  revert ack peek
  decide

theorem parseHeader_headerBytes {h : CmdHeader} (body : List Byte) (fits : headerFits h) :
    parseHeader (headerBytes h ++ body) = h := by
  obtain ⟨code, ack, peek, tag, maxReply, total⟩ := h
  obtain ⟨hcode, htag, hmax, htotal⟩ := fits
  obtain ⟨hack, hpeek⟩ := headerFlags ack peek
  simp only [parseHeader, headerBytes, toBytes, List.cons_append, List.nil_append,
    byteAt_cons_zero, byteAt_cons_succ, List.getD_cons_succ, List.getD_cons_zero, hack, hpeek,
    BitVec.toNat_ofNat, CmdHeader.mk.injEq, true_and]
  dsimp only at hcode htag hmax htotal
  simp only [Nat.pow_zero, Nat.pow_one, Nat.div_one]
  omega

theorem commandBody_headerBytes (h : CmdHeader) (body : List Byte) :
    commandBody (headerBytes h ++ body) = body := by
  rw [commandBody, ← headerBytes_length h, List.drop_left]

/-! ### COMMAND and COMMAND_MORE (R178, R179) -/

theorem takeRow_arrived {test : Routed → Bool} {f : Routed → State → State} {r : Routed}
    (hs : s.settled = true) (inbox : s.cmd.inbox = r :: rest) (ht : test r = true) :
    takeRow test f s = .next (f r (s.setCmd { s.cmd with inbox := rest })) := by
  have oldest : s.oldestRouted test = some r := by simp [State.oldestRouted, inbox, ht]
  have popped : popRouted (settle s) = s.setCmd { s.cmd with inbox := rest } := by
    rw [settle_of_settled hs, popRouted, inbox]
    rfl
  simp only [takeRow, oldest, popped]

theorem offerCommand_of_room {src : Byte} {h : CmdHeader} {body : List Byte}
    (room : s.cmd.queue.length < 8) : offerCommand src h body s =
      s.setCmd { s.cmd with queue := s.cmd.queue ++ [⟨src, h, body⟩] } := if_pos room

theorem offerCommand_of_full {src : Byte} {h : CmdHeader} {body : List Byte}
    (full : 8 ≤ s.cmd.queue.length) :
    offerCommand src h body s = immediateReport src h.code h.tag .busy s :=
  if_neg (not_lt.2 full)

section
variable {dest src : Byte} {h : CmdHeader} {body : List Byte} {ref : AC}

/-- A COMMAND packet whose body is whole is offered to the queue. -/
theorem takeFirst_whole (fits : headerFits h) (total : h.total ≤ 2048)
    (whole : body.length = h.total) :
    takeFirst ⟨.command, dest, src, headerBytes h ++ body, ref⟩ s = offerCommand src h body s := by
  have long : (headerBytes h ++ body).length = 8 + body.length := by
    rw [List.length_append, headerBytes_length]
  unfold takeFirst
  dsimp only
  rw [parseHeader_headerBytes body fits, commandBody_headerBytes, if_neg (by omega), if_pos whole]

/-- A COMMAND packet whose body is still short opens an assembly. -/
theorem takeFirst_short (fits : headerFits h) (total : h.total ≤ 2048)
    (short : body.length < h.total) :
    takeFirst ⟨.command, dest, src, headerBytes h ++ body, ref⟩ s =
      s.setCmd { s.cmd with assembly := some ⟨src, h, body, ref + 4800⟩ } := by
  have long : (headerBytes h ++ body).length = 8 + body.length := by
    rw [List.length_append, headerBytes_length]
  unfold takeFirst
  dsimp only
  rw [parseHeader_headerBytes body fits, commandBody_headerBytes, if_neg (by omega),
    if_neg (by omega)]
  rfl

end

/-- A COMMAND_MORE packet of the owner with its tag brings its bytes to the assembly. -/
theorem takeMore_owner {dest : Byte} {a : Assembly} {body : List Byte} {ref : AC}
    (fits : headerFits a.header) (ha : s.cmd.assembly = some a) :
    takeMore ⟨.commandMore, dest, a.owner, toBytes a.header.tag 2 ++ body, ref⟩ s =
      if (a.body ++ body).length > a.header.total then discardAssembly a .badLength s
      else if (a.body ++ body).length = a.header.total then
        offerCommand a.owner a.header (a.body ++ body) (closeAssembly s)
      else s.setCmd { s.cmd with
        assembly := some { a with body := a.body ++ body, deadline := ref + 4800 } } := by
  obtain ⟨-, tag, -, -⟩ := fits
  have length : (toBytes a.header.tag 2 ++ body).length = 2 + body.length := by
    rw [List.length_append, toBytes_length]
  have same : moreTag (toBytes a.header.tag 2 ++ body) = a.header.tag := by
    rw [moreTag, if_neg (by omega), field_toBytes_of_lt _ (by omega)]
  have carried : (toBytes a.header.tag 2 ++ body).drop 2 = body := List.drop_left' (toBytes_length ..)
  unfold takeMore
  rw [ha]
  dsimp only
  rw [if_neg (by simp), same, if_neg (by simp [length]; omega), carried]
  rfl

theorem commandPackets_buildTheQueue : commandPacketsBuildTheQueue := by
  refine ⟨fun s dest src h body ref rest fits total hs idle inbox => ?_,
    fun s dest a body ref rest fits hs ha inbox => ?_⟩
  · have run : exec .command s = _ := (exec_command s).trans (takeRow_arrived hs inbox rfl)
    have first (r : Routed) : takeCommand r (s.setCmd { s.cmd with inbox := rest }) =
        takeFirst r (s.setCmd { s.cmd with inbox := rest }) := by
      simp only [takeCommand, State.setCmd_cmd, idle]
    rw [run, first]
    refine ⟨fun whole room => ?_, fun short => ?_, fun whole full => ?_⟩
    · rw [takeFirst_whole fits total whole, offerCommand_of_room (by exact room)]
      rfl
    · rw [takeFirst_short fits total short]
      rfl
    · rw [takeFirst_whole fits total whole, offerCommand_of_full (by exact full)]
  · have run : exec .commandMore s = _ := (exec_commandMore s).trans (takeRow_arrived hs inbox rfl)
    rw [run, takeMore_owner fits (by exact ha)]
    refine ⟨fun whole room => ?_, fun short => ?_⟩
    · rw [if_neg (by omega), if_pos whole, offerCommand_of_room (by exact room)]
      rfl
    · rw [if_neg (by omega), if_neg (by omega)]
      rfl

/-! ### ASSEMBLY_TIMEOUT (R180) -/

theorem openFrame_of_mid (h : midFrame s) : openFrame s = s := if_pos h

/-- The header and the empty data of a TIMEOUT report. -/
theorem replyHeader_timeout (code tag : Nat) :
    replyHeader code tag (.refused .timeout) ++ (Reply.refused .timeout).data =
      toBytes code 1 ++ [2] ++ toBytes tag 2 ++ toBytes 1024 2 ++ [0, 0] := List.append_nil _

theorem assemblyTimes_out : assemblyTimesOut := by
  intro s a mid ha hd
  have due : s.timeoutDue = true := by simp [State.timeoutDue, ha, hd]
  have run : exec .assemblyTimeout s = .next (discardAssembly a .timeout s) := by
    simp only [exec, execAssemblyTimeout, openFrame_of_mid mid, due, if_true, timeoutAssembly, ha, hd]
  rw [run, discardAssembly, immediateReport]
  by_cases room : s.cmd.replies.length < 16
  · rw [if_pos (by exact room), if_pos room, replyPackets_of_short _ _ _ _ (Nat.zero_le _),
      replyHeader_timeout]
    rfl
  · rw [if_neg (by exact room), if_neg room]
    rfl

/-- Settles O37: the packets of a command, and the deadline of its assembly. -/
theorem commandsAreAssembled : Obligations.CommandsAreAssembled :=
  ⟨commandPackets_buildTheQueue, assemblyTimes_out⟩

end Sys2Proof.Machine
end

section
/-! PROOFS. The records sent (R199 to R202): each field at its offset. -/

namespace Sys2Proof.Machine

open Claim

/-! ### Fields one after the other -/

/-- Numbers one after the other, each in its width. -/
def layout : List (Nat × Nat) → List Byte
  | [] => []
  | (w, v) :: l => toBytes v w ++ layout l

/-- The fields of a layout with their offsets from a first one on. -/
def fieldsFrom : Nat → List (Nat × Nat) → List (Nat × Nat × Nat)
  | _, [] => []
  | off, (w, v) :: l => (off, w, v) :: fieldsFrom (off + w) l

theorem layout_length (l : List (Nat × Nat)) : (layout l).length = (l.map Prod.fst).sum := by
  induction l with
  | nil => rfl
  | cons q l ih => rw [layout, List.length_append, toBytes_length, ih, List.map_cons, List.sum_cons]

/-- A layout holds its fields wherever it stands. -/
theorem holdsFields_layout (l : List (Nat × Nat)) (pre post : List Byte) :
    holdsFields (pre ++ (layout l ++ post)) (fieldsFrom pre.length l) := by
  induction l generalizing pre with
  | nil => exact fun _ h => absurd h List.not_mem_nil
  | cons q l ih =>
    obtain ⟨w, v⟩ := q
    intro x hx
    obtain rfl | hx := List.mem_cons.1 hx
    · rw [field_append_right _ _ le_rfl, Nat.sub_self, layout, List.append_assoc,
        field_toBytes_append]
    · have rest := ih (pre ++ toBytes v w) x
      rw [List.length_append, toBytes_length, List.append_assoc] at rest
      rw [layout, List.append_assoc]
      exact rest hx

theorem holdsFields_of_layout {l : List (Nat × Nat)} {fields : List (Nat × Nat × Nat)}
    (h : fieldsFrom 0 l = fields) : holdsFields (layout l) fields := by
  subst h
  simpa using holdsFields_layout l [] []

theorem holdsFields_of_eq {l : List Byte} {f g : List (Nat × Nat × Nat)} (h : holdsFields l f)
    (same : f = g) : holdsFields l g := same ▸ h

theorem flagByte_eq (b : Bool) : [flagByte b] = toBytes b.toNat 1 := by cases b <;> rfl

theorem byte_eq (b : Byte) : [b] = toBytes b.toNat 1 := by
  rw [toBytes, toBytes, Nat.pow_zero, Nat.div_one, BitVec.ofNat_toNat, BitVec.setWidth_eq]

/-! ### The numbers of R201 -/

theorem entryState_code (x : EntryState) : codeIn [.empty, .armed, .filling, .ready] x = x.code := by
  cases x <;> rfl

theorem region_code (x : Region) : codeIn [.library, .ring] x = x.code := by cases x <;> rfl

theorem layout_code (x : Layout) : codeIn [.mono, .stereo] x = x.code := by cases x <;> rfl

theorem recState_code (x : RecState) :
    codeIn [.loading, .pending, .preroll, .onAir, .joining] x = x.code := by cases x <;> rfl

theorem itemClass_code (x : ItemClass) : codeIn [.must, .drop] x = x.code := by cases x <;> rfl

theorem asRunKind_code (x : AsRunKind) : codeIn [.item, .fill, .cart, .emergency] x = x.code := by
  cases x <;> rfl

theorem airOutcome_code (x : AirOutcome) : codeIn [.full, .cut, .dropped, .notAired] x = x.code := by
  cases x <;> rfl

theorem cause_code (x : Cause) :
    codeIn [.none, .fit, .time, .close, .abort, .reset, .noVoice, .missed] x = x.code := by
  cases x <;> rfl

theorem lockState_code (x : LockState) : codeIn [.search, .verify, .locked] x = x.code := by
  cases x <;> rfl

theorem egressMode_code (x : EgressMode) : codeIn [.follow, .holdover] x = x.code := by
  cases x <;> rfl

theorem ingestOutcome_code (x : IngestOutcome) :
    codeIn [.none, .limit, .cueStop, .commandStop, .regionEnd, .emptyClip, .noRoom, .linkLost] x =
      x.code := by cases x <;> rfl

theorem channelState_code (x : ChannelState) :
    codeIn [.halted, .network, .preroll, .onBreak, .joining, .emergency] x = x.code := by
  cases x <;> rfl

theorem origin_code (x : Option PrerollOrigin) :
    codeIn [none, some .network, some .emergency] x = originCode x := by
  obtain _ | _ | _ := x <;> rfl

theorem emPhase_code (x : EmPhase) :
    codeIn [.none, .covering, .recovering, .yielding] x = x.code := by cases x <;> rfl

/-! ### The channel configuration -/

theorem configBytes_layout (x : ChannelConfig) : configBytes x = layout [
    (1, x.enable.toNat), (1, x.slotL), (1, x.slotR), (2, x.openFade), (2, x.joinFade),
    (2, x.fillClip.getD 0xFFFF), (2, x.fillLevel), (4, x.fillThreshold), (2, x.emClip.getD 0xFFFF),
    (2, x.emLevel), (1, x.autoFill.toNat), (4, x.silThreshold), (2, x.silLimit), (2, x.recLimit),
    (2, x.duckDepth), (1, x.duckRate), (4, x.lateGrace)] := by
  simp only [configBytes, layout, flagByte_eq, clipField, List.append_assoc, List.append_nil]

theorem configFields_atOffsets : configFieldsAtOffsets := by
  intro x
  rw [configBytes_layout]
  exact ⟨by rw [layout_length]; simp, holdsFields_of_layout (by simp only [fieldsFrom, Nat.reduceAdd])⟩

/-! ### A directory entry -/

/-- The fields of an entry before its label. -/
def entryFront (n : Nat) (e : DirEntry) : List (Nat × Nat) := [
  (2, n), (1, e.state.code), (1, e.region.code), (2, e.firstPage), (4, e.length),
  (1, e.layout.code), (2, e.rate.code), (2, (e.trim % 65536).toNat), (1, e.loop.isSome.toNat),
  (4, (e.loop.getD (0, 0)).1), (4, (e.loop.getD (0, 0)).2), (4, e.spotKey.toNat)]

theorem entryFront_length (n : Nat) (e : DirEntry) : (layout (entryFront n e)).length = 28 := by
  rw [layout_length]
  simp [entryFront]

theorem entryBytes_layout (n : Nat) (e : DirEntry) : entryBytes n e =
    layout (entryFront n e) ++ (e.label.toList ++ layout [(2, e.damage), (2, e.hold)]) := by
  have loop : (e.loop.map fun p => p.1).getD 0 = (e.loop.getD (0, 0)).1
      ∧ (e.loop.map fun p => p.2).getD 0 = (e.loop.getD (0, 0)).2 := by
    cases e.loop <;> exact ⟨rfl, rfl⟩
  simp only [entryBytes, layout, entryFront, flagByte_eq, optBytes, loop, List.append_assoc,
    List.append_nil]
  rfl

theorem entryFields_atOffsets : entryFieldsAtOffsets := by
  intro n e
  dsimp only
  have label : e.label.toList.length = 16 := Vector.length_toList
  have front := entryFront_length n e
  rw [entryBytes_layout]
  refine ⟨?_, ?_, ?_⟩
  · rw [List.length_append, List.length_append, front, label, layout_length]
    rfl
  · rw [List.drop_left' front, List.take_left' label]
  · rw [entryState_code, region_code, layout_code]
    have early := holdsFields_layout (entryFront n e) []
      (e.label.toList ++ layout [(2, e.damage), (2, e.hold)])
    have late := holdsFields_layout [(2, e.damage), (2, e.hold)]
      (layout (entryFront n e) ++ e.label.toList) []
    rw [List.length_append, front, label, List.append_nil, List.append_assoc] at late
    refine holdsFields_of_eq (List.forall_mem_append.2 ⟨early, late⟩) ?_
    simp only [entryFront, fieldsFrom, List.length_nil, Nat.reduceAdd, List.cons_append,
      List.nil_append]
    cases e.rate <;> rfl

/-! ### An item and a summary -/

theorem itemBytes_layout (i : Item) : itemBytes i = layout [
    (2, i.clip), (1, i.cls.code), (1, i.stretch.toNat), (2, i.level), (4, i.overlap),
    (1, i.fadeIn.isSome.toNat), (1, (i.fadeIn.map fun f => f.rate).getD 0),
    (1, (i.fadeIn.map fun f => f.interval).getD 0), (1, i.fadeOut.isSome.toNat),
    (1, (i.fadeOut.map fun f => f.rate).getD 0), (1, (i.fadeOut.map fun f => f.interval).getD 0)] := by
  have fade (f : Option ItemFade) : fadeBytes f = toBytes f.isSome.toNat 1
      ++ (toBytes ((f.map fun f => f.rate).getD 0) 1
        ++ toBytes ((f.map fun f => f.interval).getD 0) 1) := by
    cases f with
    | none => rfl
    | some f => exact congrArg (· ++ (toBytes f.rate 1 ++ toBytes f.interval 1)) (flagByte_eq true)
  simp only [itemBytes, layout, flagByte_eq, fade, List.append_assoc, List.append_nil]

theorem summaryBytes_layout (place : Nat) (r : BreakRecord) : summaryBytes place r = layout [
    (2, r.number), (1, place), (1, r.state.code), (1, r.trigger.code), (4, r.trigger.keyOrTarget),
    (4, r.window), (2, r.netLevel), (2, r.fillClip.getD 0xFFFF), (1, r.expiry.isSome.toNat),
    (4, (r.expiry.getD 0).toNat), (1, r.items.length), (1, r.start.isSome.toNat),
    (4, (r.start.getD 0).toNat), (1, r.deadline.isSome.toNat), (4, (r.deadline.getD 0).toNat),
    (1, r.ret.isSome.toNat), (4, (r.ret.getD 0).toNat)] := by
  have present (a : Option AC) :
      acPresent a = toBytes a.isSome.toNat 1 ++ toBytes (a.getD 0).toNat 4 := by
    rw [acPresent, flagByte_eq, acBytes, optBytes]
    cases a <;> rfl
  simp only [summaryBytes, layout, present, clipField, List.append_assoc, List.append_nil]

theorem summaryFields_atOffsets : summaryFieldsAtOffsets := by
  refine ⟨fun place r => ?_, fun i => ?_⟩
  · dsimp only
    rw [summaryBytes_layout, recState_code]
    refine ⟨by rw [layout_length]; simp, holdsFields_of_layout ?_⟩
    cases r.trigger <;> simp only [fieldsFrom, Nat.reduceAdd] <;> rfl
  · rw [itemBytes_layout, itemClass_code]
    exact ⟨by rw [layout_length]; simp, holdsFields_of_layout (by simp only [fieldsFrom, Nat.reduceAdd])⟩

/-! ### An as-run record -/

/-- The fields of a record's short form. -/
def shortFields (r : AsRunRecord) : List (Nat × Nat) := [
  (1, r.channel.val * 64 + r.kind.code * 16 + r.outcome.code * 4 + r.late.toNat),
  (1, r.cause.code * 32 + r.itemNo.getD 0), (2, r.breakNo.getD 0), (2, r.clip),
  (4, r.spotKey.toNat), (4, (r.planned.getD 0).toNat), (2, r.squeeze.getD 65536 - 65536)]

theorem shortFields_length (r : AsRunRecord) : (layout (shortFields r)).length = 16 := by
  rw [layout_length]
  simp [shortFields]

theorem shortForm_layout (r : AsRunRecord) : shortForm r = layout (shortFields r) := by
  have late : (if r.late then 1 else 0) = r.late.toNat := by cases r.late <;> rfl
  have planned : acBytes r.planned = toBytes (r.planned.getD 0).toNat 4 := by
    cases hp : r.planned <;> rfl
  unfold shortForm
  simp only [layout, shortFields, late, planned, optBytes, List.append_assoc, List.append_nil]
  cases r.squeeze <;> rfl

theorem recordBytes_short {r : AsRunRecord} (h : r.aired = none) :
    recordBytes r = layout (shortFields r) := by rw [recordBytes, h, ← shortForm_layout]

theorem recordBytes_full {r : AsRunRecord} {a : Aired} (h : r.aired = some a) :
    recordBytes r = layout (shortFields r)
      ++ layout [(4, a.startAC.toNat), (4, a.endAC.toNat), (4, a.frames)] := by
  rw [recordBytes, h, ← shortForm_layout]
  simp only [layout, List.append_assoc, List.append_nil]

theorem recordFields_atOffsets : recordFieldsAtOffsets := by
  intro r
  dsimp only
  rw [asRunKind_code, airOutcome_code, cause_code]
  have short := holdsFields_layout (shortFields r) []
  simp only [shortFields, fieldsFrom, List.length_nil, Nat.reduceAdd, List.nil_append] at short
  cases hr : r.aired with
  | none =>
    rw [recordBytes_short hr]
    refine ⟨shortFields_length r, ?_, fun a ha => by cases ha⟩
    have whole := short []
    rw [List.append_nil] at whole
    exact whole
  | some a =>
    have airing := holdsFields_layout [(4, a.startAC.toNat), (4, a.endAC.toNat), (4, a.frames)]
      (layout (shortFields r)) []
    rw [shortFields_length, List.append_nil] at airing
    rw [recordBytes_full hr]
    refine ⟨?_, short _, fun b hb => ?_⟩
    · rw [List.length_append, shortFields_length, layout_length]
      rfl
    · obtain rfl := Option.some.inj hb
      exact airing

/-! ### The status record (R202) -/

section
variable (s : State)

/-- The fields of section 1. -/
def linkFields : List (Nat × Nat) := [
  (4, s.clock.ac.toNat), (1, s.rx.lock.code), (1, s.tx.mode.code), (1, s.rx.syncSlip.toNat),
  (2, s.tx.holdover), (1, s.lane.unitAddr.toNat), (1, s.lane.groupAddr.toNat), (2, s.rx.syncMiss),
  (2, s.rx.checkFail), (2, s.rx.lockLoss), (2, s.lane.stray), (2, s.lane.headerError),
  (2, s.lane.badCheck), (2, s.lane.misdirected), (2, s.lane.unknownKind), (2, s.lane.broken),
  (2, s.tx.timingSlip), (2, s.tx.fifoOverflow), (1, s.clock.mark.valid.toNat),
  (4, s.clock.mark.ac.toNat), (4, s.clock.mark.seconds), (2, s.clock.mark.frame)]

theorem linkSection_layout : linkSection s = layout (linkFields s) := by
  have addresses : [s.lane.unitAddr, s.lane.groupAddr] =
      toBytes s.lane.unitAddr.toNat 1 ++ toBytes s.lane.groupAddr.toNat 1 := by
    rw [← byte_eq, ← byte_eq, List.singleton_append]
  simp only [linkSection, counters, List.flatMap_cons, List.flatMap_nil, layout, linkFields,
    flagByte_eq, addresses, List.append_assoc, List.append_nil]

/-- The fields of section 2. -/
def cueFields : List (Nat × Nat) := [
  (2, s.cues.cue), (2, s.cues.unknown), (2, s.cues.malformed), (2, s.cues.unmatched),
  (2, s.cues.refused), (2, s.cues.recordBusy), (2, s.cues.recordUnmatched),
  (1, 8 - s.cmd.queue.length), (1, s.cmd.replies.length), (1, s.cmd.assembly.isSome.toNat),
  (2, s.cmd.reportDrops), (4, s.alert.mask.toNat), (4, s.alert.changed.toNat),
  (1, s.alert.pending.toNat)]

theorem cueSection_layout : cueSection s = layout (cueFields s) := by
  simp only [cueSection, counters, List.flatMap_cons, List.flatMap_nil, layout, cueFields,
    flagByte_eq, List.append_assoc, List.append_nil, Config.commandQueue]

/-- The fields of section 3. -/
def storeFields : List (Nat × Nat) := [
  (1, s.store.engine.isSome.toNat), (2, (s.store.engine.map fun g => g.arm.clip).getD 0),
  (4, (s.store.engine.map fun g => g.words).getD 0), (1, s.store.armList.length), (2, s.store.lp),
  (2, s.store.currentPage), (2, s.store.boundaryPage), (2, s.store.freePages),
  (2, s.store.lastReport.clip), (1, s.store.lastReport.outcome.code),
  (4, s.store.lastReport.length), (1, s.freeVoices.length), (1, s.reserve), (1, s.events.length),
  (2, s.poolFree), (2, s.asrun.records.length), (2, s.asrun.lost), (1, s.asrunHigh.toNat)]

theorem storeSection_layout : storeSection s = layout (storeFields s) := by
  simp only [storeSection, layout, storeFields, flagByte_eq, optBytes, List.append_assoc,
    List.append_nil]

/-- The fields of the section of channel c. -/
def channelFields (c : Fin 4) : List (Nat × Nat) := [
  (1, (s.ch c).config.enable.toNat), (1, (s.ch c).state.code), (1, originCode (s.ch c).origin),
  (1, (s.ch c).returning.toNat), (2, (s.ch c).gain), (2, (s.ch c).gainTarget), (2, (s.ch c).duck),
  (1, (s.micLive c).toNat), (2, (s.ch c).saturation), (2, (s.ch c).cartRefusals),
  (2, (s.ch c).fireRefusals), (1, s.voicesOwned c .brk), (1, s.voicesOwned c .cart),
  (1, s.voicesOwned c .emergency), (1, (s.ch c).queue.length),
  (2, ((s.flight c).map fun r => r.number).getD 0),
  (1, ((s.flight c).map fun r => r.state.code).getD 0), (2, (s.ch c).monitor.silentCount),
  (1, (s.ch c).monitor.silence.toNat), (2, (s.ch c).monitor.recoveryCount),
  (1, (s.ch c).monitor.phase.code), (1, ((s.ch c).monitor.emRecord.map fun r => r.voice.val).getD 0),
  (2, (s.ch c).monitor.refusals)]

theorem channelSection_layout (c : Fin 4) : channelSection s c = layout (channelFields s c) := by
  unfold channelSection
  dsimp only
  rw [flagByte_eq, flagByte_eq, flagByte_eq, flagByte_eq]
  simp only [layout, channelFields, optBytes, List.append_assoc, List.append_nil]

theorem section_lengths : (layout (linkFields s)).length = 44 ∧ (layout (cueFields s)).length = 28
    ∧ (layout (storeFields s)).length = 33 ∧ ∀ c, (layout (channelFields s c)).length = 33 := by
  refine ⟨?_, ?_, ?_, fun c => ?_⟩
  all_goals
    rw [layout_length]
    simp [linkFields, cueFields, storeFields, channelFields]

theorem statusSections_flatten : (statusSections s).flatten = linkSection s
    ++ (cueSection s ++ (storeSection s ++ (channelSection s 0 ++ (channelSection s 1
      ++ (channelSection s 2 ++ (channelSection s 3 ++ contactSection s)))))) := by
  simp only [statusSections, allChannels, List.map_cons, List.map_nil, List.flatten_cons,
    List.flatten_nil, List.append_nil, List.cons_append, List.nil_append]

theorem statusSections_layout : (statusSections s).flatten = layout (linkFields s)
    ++ (layout (cueFields s) ++ (layout (storeFields s) ++ (layout (channelFields s 0)
      ++ (layout (channelFields s 1) ++ (layout (channelFields s 2)
        ++ (layout (channelFields s 3) ++ contactSection s)))))) := by
  rw [statusSections_flatten, linkSection_layout, cueSection_layout, storeSection_layout,
    channelSection_layout, channelSection_layout, channelSection_layout, channelSection_layout]

end

/-! #### The contact levels -/

/-- The number whose bits are the levels, the first lowest. -/
theorem levelBits_eq (l : List Bool) (base : Nat) : levelBits base l = 2 ^ base * levelBits 0 l := by
  induction l generalizing base with
  | nil => rfl
  | cons b l ih =>
    rw [levelBits, levelBits, ih (base + 1), ih (0 + 1)]
    cases b <;> simp [Nat.pow_succ] <;> ring

theorem levelBits_cons (b : Bool) (l : List Bool) :
    levelBits 0 (b :: l) = b.toNat + 2 * levelBits 0 l := by
  rw [levelBits, levelBits_eq]
  cases b <;> rfl

theorem levelBits_testBit (l : List Bool) (i : Nat) : (levelBits 0 l).testBit i = l.getD i false := by
  induction l generalizing i with
  | nil => simp [levelBits]
  | cons b l ih =>
    rw [levelBits_cons]
    cases i with
    | zero => cases b <;> simp [Nat.testBit_zero]
    | succ i =>
      have half : (b.toNat + 2 * levelBits 0 l) / 2 = levelBits 0 l := by
        have small := b.toNat_lt
        omega
      rw [Nat.testBit_succ, half, ih, List.getD_cons_succ]

theorem levelBits_lt (l : List Bool) : levelBits 0 l < 2 ^ l.length := by
  induction l with
  | nil => exact Nat.one_pos
  | cons b l ih =>
    rw [levelBits_cons, List.length_cons, Nat.pow_succ]
    cases b
    · simp
      omega
    · simp
      omega

theorem contactSection_eq (s : State) : contactSection s =
    [BitVec.ofNat 8 (levelBits 0 (allGpi.map fun g => (s.gpiLine g).stable)),
      BitVec.ofNat 8 (levelBits 0 (allGpo.map fun g => s.gpoDrive g))] := by
  simp [contactSection, toBytes]

/-! #### The fields at their offsets -/

/-- The fields of a layout behind bytes of a known length. -/
theorem holdsFields_at {l : List (Nat × Nat)} {pre : List Byte} {off : Nat}
    {fields : List (Nat × Nat × Nat)} (post : List Byte) (hpre : pre.length = off)
    (h : fieldsFrom off l = fields) : holdsFields (pre ++ (layout l ++ post)) fields := by
  subst hpre h
  exact holdsFields_layout l pre post

theorem freePages_eq (st : Store) : st.freePages = if st.ringList = [] then 4096 - st.lp
    else (st.boundaryPage + (4096 - st.lp) - st.currentPage) % (4096 - st.lp) := by
  simp only [Store.freePages, Store.ringPages, Config.pages, List.isEmpty_iff]

theorem voicesOwned_eq (s : State) (c : Fin 4) (p : Purpose) : s.voicesOwned c p =
    allVoices.countP fun v => (s.voice v).owner == some ⟨c, p⟩ :=
  List.countP_eq_length_filter.symm

theorem freeVoices_length (s : State) :
    s.freeVoices.length = allVoices.countP fun v => (s.voice v).state == .free :=
  List.countP_eq_length_filter.symm

theorem statusSections_lengths (s : State) :
    (statusSections s).map (fun x => x.length) = [44, 28, 33, 33, 33, 33, 33, 2] := by
  obtain ⟨link, cue, store, channel⟩ := section_lengths s
  simp only [statusSections, allChannels, List.map_cons, List.map_nil, linkSection_layout,
    cueSection_layout, storeSection_layout, channelSection_layout, link, cue, store, channel,
    contactSection_eq, List.cons_append, List.nil_append, List.length_cons, List.length_nil]

/-- The bytes before a section. -/
theorem statusSections_before (s : State) (i : Nat) : ((statusSections s).take i).flatten.length =
    (([44, 28, 33, 33, 33, 33, 33, 2] : List Nat).take i).sum := by
  rw [List.length_flatten, List.map_take, ← statusSections_lengths s]

/-- The section of channel c, between the sections before it and behind it. -/
theorem statusSections_channel (s : State) (c : Fin 4) : ∃ pre post,
    pre.length = 105 + 33 * c.val
      ∧ (statusSections s).flatten = pre ++ (layout (channelFields s c) ++ post) := by
  refine ⟨((statusSections s).take (3 + c.val)).flatten,
    ((statusSections s).drop (3 + c.val + 1)).flatten, ?_, ?_⟩
  · rw [statusSections_before]
    fin_cases c <;> rfl
  · have here : (statusSections s).drop (3 + c.val) =
        channelSection s c :: (statusSections s).drop (3 + c.val + 1) := by
      fin_cases c <;> rfl
    rw [← channelSection_layout, ← List.flatten_cons, ← here, ← List.flatten_append,
      List.take_append_drop]

/-- The two contact bytes, at the end. -/
theorem statusSections_contacts (s : State) : ∃ pre, pre.length = 237
    ∧ (statusSections s).flatten = pre ++ contactSection s := by
  refine ⟨((statusSections s).take 7).flatten, statusSections_before s 7, ?_⟩
  have last : (statusSections s).drop 7 = [contactSection s] := rfl
  rw [← List.flatten_singleton (l := contactSection s), ← last, ← List.flatten_append,
    List.take_append_drop]

theorem onAir_eq (x : ChannelState) :
    x.onAir = (x == .preroll || x == .onBreak || x == .joining) := by cases x <;> rfl

/-- The bits of a contact byte. -/
theorem contactBit (l : List Bool) (i : Nat) (hi : i < 8) :
    (BitVec.ofNat 8 (levelBits 0 l)).getLsbD i = l.getD i false := by
  rw [BitVec.getLsbD_ofNat, levelBits_testBit, decide_eq_true hi, Bool.true_and]

theorem statusFields_atOffsets : statusFieldsAtOffsets := by
  intro s
  dsimp only
  obtain ⟨link, cue, store, channel⟩ := section_lengths s
  refine ⟨?_, ?_, ?_, ?_, fun c => ?_, fun g => ?_, fun g => ?_, ?_⟩
  · exact statusSections_lengths s
  · rw [statusSections_layout, lockState_code, egressMode_code]
    exact holdsFields_at (l := linkFields s) (pre := []) (off := 0) _ rfl
      (by simp only [linkFields, fieldsFrom, Nat.reduceAdd])
  · rw [statusSections_layout]
    exact holdsFields_at _ link (by simp only [cueFields, fieldsFrom, Nat.reduceAdd])
  · rw [statusSections_layout, ingestOutcome_code, ← List.append_assoc]
    refine holdsFields_at (off := 72) _ (by rw [List.length_append, link, cue]) ?_
    simp only [storeFields, fieldsFrom, Nat.reduceAdd, freePages_eq, freeVoices_length]
    rfl
  · obtain ⟨pre, post, hpre, whole⟩ := statusSections_channel s c
    rw [whole]
    refine holdsFields_at post hpre ?_
    simp only [channelFields, fieldsFrom, Nat.add_assoc, channelState_code, origin_code,
      emPhase_code, recState_code, voicesOwned_eq]
    rfl
  · obtain ⟨pre, hpre, whole⟩ := statusSections_contacts s
    rw [whole, contactSection_eq, List.getD_append_right _ _ _ _ hpre.le, hpre]
    refine (contactBit _ g.val g.isLt).trans ?_
    fin_cases g <;> rfl
  · obtain ⟨pre, hpre, whole⟩ := statusSections_contacts s
    rw [whole, contactSection_eq, List.getD_append_right _ _ _ _ (by omega), hpre]
    have drive : (allGpo.map fun g => s.gpoDrive g).getD g.val false = s.gpoLevel s.gpo[g.val] := by
      fin_cases g <;> rfl
    refine ((contactBit _ g.val (by omega)).trans drive).trans ?_
    cases s.gpo[g.val] with
    | onAir c => exact onAir_eq _
    | _ => rfl
  · obtain ⟨pre, hpre, whole⟩ := statusSections_contacts s
    rw [whole, contactSection_eq, List.getD_append_right _ _ _ _ (by omega), hpre]
    have small := levelBits_lt (allGpo.map fun g => s.gpoDrive g)
    rw [List.length_map] at small
    exact (Nat.mod_le _ _).trans_lt small

end Sys2Proof.Machine
end

section
/-! PROOFS. The commands that answer as many parts as fit: STATUS_READ, DIR_READ, BREAK_LIST and
ASRUN_FETCH; the as-run queue. -/

namespace Sys2Proof.Machine

open Claim

variable {s : State} {src : Byte} {h : CmdHeader} {rest : List Command}

/-! ### A row that reads its header, and what fits -/

/-- The row of a command with one body length whose work reads the header. -/
theorem answers_of_headed {i : Instr} {code n : Nat}
    {f : CmdHeader → List Byte → State → Reply × State} {body : List Byte} {r : Reply} {t : State}
    (hexec : exec i s = runRow (hasCode code) false (fun c => sized n (f c.header) c) s)
    (hready : ready s src h body rest) (hcode : h.code = code) (hlen : body.length = n)
    (hf : f h body (taken s rest) = (r, t)) : answers i s src h r t :=
  answers_of_row hexec hready (beq_iff_eq.2 hcode) ((sized_of_length _ hlen).trans hf)

theorem exec_statusRead (s : State) : exec .statusRead s =
    runRow (hasCode 0x04) false (fun c => sized 1 (statusRead (dataLimit c.header)) c) s := rfl

theorem exec_dirRead (s : State) : exec .dirRead s =
    runRow (hasCode 0x20) false (fun c => sized 4 (dirRead (dataLimit c.header)) c) s := rfl

theorem exec_breakList (s : State) : exec .breakList s =
    runRow (hasCode 0x32) false (fun c => sized 3 (breakList (dataLimit c.header)) c) s := rfl

theorem exec_asrunFetch (s : State) : exec .asrunFetch s =
    runRow (hasCode 0x50) false (fun c => sized 2 (asrunFetch c.header) c) s := rfl

theorem exec_asrunDiscard (s : State) : exec .asrunDiscard s =
    runRow (hasCode 0x51) false (sized 2 asrunDiscard) s := rfl

theorem fitting_le (room : Nat) (l : List (List Byte)) : fitting room l ≤ l.length := by
  induction l generalizing room with
  | nil => exact le_rfl
  | cons p l ih =>
    rw [fitting]
    split
    · exact Nat.succ_le_succ (ih _)
    · exact Nat.zero_le _

theorem fitting_fits (room : Nat) (l : List (List Byte)) :
    ((l.take (fitting room l)).flatten).length ≤ room := by
  induction l generalizing room with
  | nil => exact Nat.zero_le _
  | cons p l ih =>
    rw [fitting]
    split
    · next hp =>
      have := ih (room - p.length)
      rw [List.take_succ_cons, List.flatten_cons, List.length_append]
      omega
    · exact Nat.zero_le _

theorem fitting_most {room : Nat} {l : List (List Byte)} (hn : fitting room l < l.length) :
    room < ((l.take (fitting room l + 1)).flatten).length := by
  induction l generalizing room with
  | nil => exact absurd hn (Nat.not_lt_zero _)
  | cons p l ih =>
    rw [fitting] at hn ⊢
    split
    · next hp =>
      rw [if_pos hp, List.length_cons] at hn
      have := ih (Nat.lt_of_succ_lt_succ hn)
      rw [List.take_succ_cons, List.flatten_cons, List.length_append]
      omega
    · next hp =>
      rw [List.take_succ_cons, List.flatten_cons, List.length_append]
      omega

/-- Parts that all fit are all sent. -/
theorem fitting_of_room {room : Nat} {l : List (List Byte)} (hl : l.flatten.length ≤ room) :
    fitting room l = l.length := by
  by_contra hne
  have hn : fitting room l < l.length := by
    have := fitting_le room l
    omega
  have most := fitting_most hn
  have part : (l.take (fitting room l + 1)).flatten.length ≤ l.flatten.length :=
    (List.Sublist.flatten (List.take_sublist ..)).length_le
  omega

/-- Of parts of one length as many fit as the room holds of that length. -/
theorem fitting_of_equal {k : Nat} (hk : 0 < k) {l : List (List Byte)} {room : Nat}
    (h : ∀ p ∈ l, p.length = k) : fitting room l = min l.length (room / k) := by
  induction l generalizing room with
  | nil => simp [fitting]
  | cons p l ih =>
    rw [fitting, h p List.mem_cons_self, List.length_cons]
    split
    · next fits =>
      rw [ih fun q hq => h q (List.mem_cons_of_mem _ hq), Nat.div_eq_sub_div hk fits]
      omega
    · next short => rw [Nat.div_eq_of_lt (by omega), Nat.min_zero]

/-! ### STATUS_READ -/

theorem statusSections_length (s : State) : (statusSections s).length = 8 := rfl

/-- What each channel's step does to its channel, with the other channels left, is done to every
channel by all four. -/
theorem forChannels_ch {f : Fin 4 → State → State} {g : Fin 4 → Channel → Channel}
    (h : ∀ c d s, (f c s).ch d = if d = c then g d (s.ch d) else s.ch d) (s : State) (c : Fin 4) :
    (forChannels f s).ch c = g c (s.ch c) := by
  simp only [forChannels, allChannels, List.foldl_cons, List.foldl_nil, h]
  fin_cases c <;> rfl

/-- A channel with its counts at 0. -/
def zeroedCounts (x : Channel) : Channel := { x with
  saturation := 0, cartRefusals := 0, fireRefusals := 0, monitor := { x.monitor with refusals := 0 } }

theorem zeroChannelCounts_ch (c d : Fin 4) (s : State) : (zeroChannelCounts c s).ch d =
    if d = c then zeroedCounts (s.ch d) else s.ch d := by
  unfold zeroChannelCounts
  split
  · next hd =>
    rw [hd, State.ch_setCh_same]
    rfl
  · next hd => rw [State.ch_setCh_other _ _ _ _ hd]

theorem flagOf_none {n : Nat} (h : 1 < n) : flagOf n = none := by
  unfold flagOf
  split
  · omega
  · omega
  · rfl

theorem statusRead_reportsAndClears : statusReadReportsAndClears := by
  intro s src h flag rest hready hcode
  have run {r : Reply} {t : State} := answers_of_headed
    (f := fun h => statusRead (dataLimit h)) (r := r) (t := t) (exec_statusRead s) hready hcode rfl
  refine ⟨?_, ?_, fun above => run ?_⟩
  · rintro rfl
    have all := statusSections_length (taken s rest)
    refine ⟨fitting (dataLimit h) (statusSections (taken s rest)),
      (fitting_le _ _).trans all.le, fitting_fits _ _,
      fun hn => fitting_most (hn.trans_le all.ge), run ?_⟩
    rfl
  · rintro rfl fits
    have all := fitting_of_room fits
    rw [statusSections_length] at all
    refine ⟨clearSections 8 (taken s rest), run ?_, rfl, rfl, rfl, rfl, rfl, rfl, fun c => ?_,
      rfl, rfl, rfl, rfl, rfl⟩
    · have clears : flagOf (byteAt [(1 : Byte)] 0) = some true := rfl
      have whole : (statusSections (taken s rest)).take 8 = statusSections (taken s rest) := rfl
      simp only [statusRead, clears, all, statusSections_length, whole, if_true, Nat.lt_irrefl,
        decide_false]
    · exact forChannels_ch (g := fun _ => zeroedCounts) zeroChannelCounts_ch _ c
  · have bad : flagOf (byteAt [flag] 0) = none := flagOf_none above
    simp only [statusRead, bad]
    rfl

/-- Settles O43: the sections that fit, and their fields. -/
theorem statusReadReportsAndClears : Obligations.StatusReadReportsAndClears :=
  ⟨statusRead_reportsAndClears, statusFields_atOffsets⟩

/-! ### DIR_READ -/

theorem take_range' (a : Nat) {n m : Nat} (h : n ≤ m) :
    (List.range' a m).take n = List.range' a n := by
  obtain ⟨k, rfl⟩ := Nat.exists_eq_add_of_le h
  rw [← List.range'_append_1, List.take_left' List.length_range']

theorem dirRead_answersEntries : dirReadAnswersEntries := by
  intro s src h first count rest hf hc hready hcode
  have run {r : Reply} {t : State} := answers_of_headed
    (f := fun h => dirRead (dataLimit h)) (r := r) (t := t) (exec_dirRead s) hready hcode
    (by rw [List.length_append, toBytes_length, toBytes_length])
  have firstField : field (toBytes first 2 ++ toBytes count 2) 0 2 = first :=
    field_toBytes_of_lt _ (by omega)
  have countField : field (toBytes first 2 ++ toBytes count 2) 2 2 = count := by
    rw [field_skip _ _ le_rfl, field_toBytes, Nat.mod_eq_of_lt (by omega)]
  refine ⟨fun bad => run ?_, fun inside some => run ?_⟩
  · unfold dirRead
    rw [firstField, countField]
    exact if_pos bad
  · unfold dirRead
    rw [firstField, countField]
    dsimp only
    rw [if_neg (by omega)]
    have size : ∀ p ∈ (List.range' first (min count (Config.dirEntries - first))).map
        (fun n => entryBytes n ((taken s rest).entry n)), p.length = 48 := by
      intro p hp
      obtain ⟨i, -, rfl⟩ := List.mem_map.1 hp
      exact (entryFields_atOffsets i _).1
    have most : min (min count (1024 - first)) ((dataLimit h - 4) / 48) ≤ min count (1024 - first) :=
      min_le_left ..
    rw [fitting_of_equal (by decide) size, List.length_map, List.length_range', ← List.map_take,
      ← List.flatMap_def, take_range' _ most]
    rfl

/-- Settles O50: the entries that fit, and their layout. -/
theorem dirReadAnswersEntries : Obligations.DirReadAnswersEntries :=
  ⟨dirRead_answersEntries, entryFields_atOffsets⟩

/-! ### BREAK_LIST -/

theorem breakList_answersTheQueue : breakListAnswersTheQueue := by
  intro s src h c n rest hn hready hcode
  have run {r : Reply} {t : State} := answers_of_headed
    (f := fun h => breakList (dataLimit h)) (r := r) (t := t) (exec_breakList s) hready hcode
    (by rw [List.length_append, toBytes_length]; rfl)
  have channel : channelOf (byteAt ([BitVec.ofNat 8 c.val] ++ toBytes n 2) 0) = some c := by
    rw [List.singleton_append, byteAt_channel, channelOf_val]
  have number : field ([BitVec.ofNat 8 c.val] ++ toBytes n 2) 1 2 = n := by
    simpa using field_afterByte (BitVec.ofNat 8 c.val) hn []
  have sends {parts : List (List Byte)} (hp : listParts (taken s rest) c n = some parts) :
      breakList (dataLimit h) ([BitVec.ofNat 8 c.val] ++ toBytes n 2) (taken s rest) =
        (.done false (decide (fitting (dataLimit h - 3) parts < parts.length))
          (toBytes (s.ch c).queue.length 1 ++ toBytes s.poolFree 2
            ++ (parts.take (fitting (dataLimit h - 3) parts)).flatten), taken s rest) := by
    simp only [breakList, channel, number, hp]
    rfl
  have sent {parts : List (List Byte)} (hp : listParts (taken s rest) c n = some parts) :
      ∃ k, k ≤ parts.length
      ∧ ((parts.take k).flatten).length ≤ dataLimit h - 3
      ∧ (k < parts.length → dataLimit h - 3 < ((parts.take (k + 1)).flatten).length)
      ∧ answers .breakList s src h (.done false (decide (k < parts.length))
          (toBytes (s.ch c).queue.length 1 ++ toBytes s.poolFree 2 ++ (parts.take k).flatten))
          (taken s rest) :=
    ⟨_, fitting_le _ _, fitting_fits _ _, fitting_most, run (sends hp)⟩
  refine ⟨fun hz => sent (if_pos hz), fun r hz hr => sent ?_, fun hz hr => run ?_⟩
  · rw [listParts, if_neg hz]
    exact congrArg (Option.map _) hr
  · have unknown : listParts (taken s rest) c n = none := by
      rw [listParts, if_neg hz]
      exact congrArg (Option.map _) hr
    simp only [breakList, channel, number, unknown]
    rfl

/-- Settles O56: the queue's parts as many as fit, and their layouts. -/
theorem breakListAnswersTheQueue : Obligations.BreakListAnswersTheQueue :=
  ⟨breakList_answersTheQueue, summaryFields_atOffsets⟩

/-! ### The as-run queue (R169, R170, R172, R173) -/

theorem asrunWrite_keepsOrLoses : asRunQueueKeepsOrLoses := by
  intro r s
  refine ⟨fun room => ?_, fun high => ?_, fun full => ?_⟩
  · obtain below | ⟨high, room⟩ := room
    · have after : ¬192 ≤ s.asrun.records.length + 1 := by omega
      have before : ¬192 ≤ s.asrun.records.length := by omega
      have fits : s.asrun.records.length < 256 := by omega
      simp [asrunWrite, State.asrunHigh, Config.asrunRecords, Config.asrunHigh, fits, before, after]
    · simp [asrunWrite, State.asrunHigh, Config.asrunRecords, Config.asrunHigh, room, high]
  · simp [asrunWrite, State.asrunHigh, Config.asrunRecords, Config.asrunHigh, high]
  · exact if_neg (not_lt.2 full)

theorem asrunHigh_low (low : s.asrun.records.length < 192) : s.asrunHigh = false := by
  simp only [State.asrunHigh, Config.asrunHigh, decide_eq_false_iff_not]
  omega

theorem asrunRemove_low {n : Nat} (low : s.asrun.records.length < 192) :
    asrunRemove n s = s.setAsrun { s.asrun with records := s.asrun.records.drop n } := by
  simp only [asrunRemove, asrunHigh_low low, Bool.false_and, if_neg Bool.false_ne_true]

theorem asrunRemove_nextLow (n : Nat) (low : s.asrun.records.length < 192) :
    (asrunRemove n s).asrunHigh = false := by
  rw [asrunRemove_low low]
  refine asrunHigh_low ?_
  rw [State.setAsrun_asrun, List.length_drop]
  omega

theorem clearLost_high (s : State) : (clearLost s).asrunHigh = s.asrunHigh := rfl

/-- A maximum in range is read as it was sent. -/
theorem clampField_maximum {n : Nat} (hn : n ≤ 256) :
    clampField 0 256 (field (toBytes n 2) 0 2) = (n, false) := by
  rw [field_toBytes, Nat.mod_eq_of_lt (by omega), clampField, clampNat]
  have same : min (max n 0) 256 = n := by omega
  rw [same, bne_self_eq_false]

theorem asRunFetch_takesTheOldest : asRunFetchTakesTheOldest := by
  intro s src h maximum rest hm hready hcode low
  have run {r : Reply} {t : State} := answers_of_headed (f := asrunFetch) (r := r) (t := t)
    (exec_asrunFetch s) hready hcode (toBytes_length ..)
  have low' : (taken s rest).asrun.records.length < 192 := low
  refine ⟨_, fitting_le (dataLimit h - 8) _, fitting_fits _ _, fitting_most, fun hp => run ?_,
    fun hp => run ?_⟩
  · unfold asrunFetch
    rw [clampField_maximum hm, hp]
    dsimp only
    rw [if_pos rfl, fetchSummary, asrunHigh_low low']
    rfl
  · unfold asrunFetch
    rw [clampField_maximum hm, hp]
    dsimp only
    rw [if_neg Bool.false_ne_true, fetchSummary, clearLost_high, asrunRemove_nextLow _ low',
      asrunRemove_low low']
    simp only [clearLost, State.setAsrun_asrun, List.length_drop]
    rfl

theorem asRunDiscard_removesTheOldest : asRunDiscardRemovesTheOldest := by
  intro s src h n rest hn hready hcode low
  have low' : (taken s rest).asrun.records.length < 192 := low
  refine answers_of_work (exec_asrunDiscard s) hready hcode (toBytes_length ..) ?_
  unfold asrunDiscard
  rw [clampField_maximum hn]
  dsimp only
  rw [asrunRemove_low low', State.setAsrun_asrun, List.length_drop]
  rfl

/-- Settles O60: records written, fetched and discarded, and their layout. -/
theorem asRunQueueKeepsItsOrder : Obligations.AsRunQueueKeepsItsOrder :=
  ⟨asrunWrite_keepsOrLoses, asRunFetch_takesTheOldest, asRunDiscard_removesTheOldest,
    recordFields_atOffsets⟩

end Sys2Proof.Machine
end

section
/-! PROOFS. VOICE_TRIM, CART_FIRE and CLOCK_SET. -/

namespace Sys2Proof.Machine

open Claim

variable {s : State} {src : Byte} {h : CmdHeader} {rest : List Command}

/-! ### VOICE_TRIM (R148) -/

theorem exec_voiceTrim (s : State) :
    exec .voiceTrim s = runRow (hasCode 0x35) false (sized 4 voiceTrim) s := rfl

theorem targetCode_le (level : Nat) (trim : Int) : targetCode level trim ≤ Config.maxCode := by
  unfold targetCode
  omega

/-- The trim of a voice's clip, 0 without one. -/
def State.voiceTrimOf (s : State) (v : Fin 16) : Int :=
  match (s.voice v).clip with
  | some n => (s.entry n).trim
  | none => 0

/-- Voice v takes a staged level (R59). -/
def State.takesLevel (s : State) (v : Fin 16) : Bool :=
  (s.voice v).state == .playing && !(s.voice v).ramp.any fun r => r.stop

theorem stageVoice_eq (v : Fin 16) (target rate : Nat) (s : State) :
    stageVoice v target rate s = (s.takesLevel v, if s.takesLevel v then s.setVoice v { s.voice v with
      staged := some ⟨min target Config.maxCode, clampNat 1 255 rate⟩ } else s) := by
  unfold stageVoice State.takesLevel
  by_cases playing : (s.voice v).state = .playing
  · obtain none_ | ⟨r, ramp⟩ := Option.eq_none_or_eq_some (s.voice v).ramp
    · simp [playing, none_]
    · cases stops : r.stop <;> simp [playing, ramp, stops]
  · simp [playing]

/-- The level staged for voice v, when it takes one. -/
def stageLevel (level rate : Nat) (v : Fin 16) (s : State) : State :=
  if s.takesLevel v then s.setVoice v { s.voice v with
    staged := some ⟨targetCode level (s.voiceTrimOf v), clampNat 1 255 rate⟩ } else s

theorem trimVoice_eq (level rate n : Nat) (v : Fin 16) (s : State) :
    trimVoice level rate (n, s) v =
      (n + (if s.takesLevel v then 1 else 0), stageLevel level rate v s) := by
  have capped : min (targetCode level (s.voiceTrimOf v)) Config.maxCode =
      targetCode level (s.voiceTrimOf v) := Nat.min_eq_left (targetCode_le level _)
  change (if (stageVoice v (targetCode level (s.voiceTrimOf v)) rate s).1 then n + 1 else n,
    (stageVoice v (targetCode level (s.voiceTrimOf v)) rate s).2) = _
  rw [stageVoice_eq, capped, stageLevel]
  cases s.takesLevel v <;> rfl

theorem stageLevel_voice_other {v w : Fin 16} (hne : w ≠ v) (level rate : Nat) (s : State) :
    (stageLevel level rate v s).voice w = s.voice w := by
  unfold stageLevel
  split
  · exact State.voice_setVoice_other s v w _ hne
  · rfl

theorem stageLevel_entry (level rate : Nat) (v : Fin 16) (s : State) (n : Nat) :
    (stageLevel level rate v s).entry n = s.entry n := by
  unfold stageLevel
  split
  · exact State.setVoice_entry ..
  · rfl

theorem stageLevel_takes_other {v w : Fin 16} (hne : w ≠ v) (level rate : Nat) (s : State) :
    (stageLevel level rate v s).takesLevel w = s.takesLevel w := by
  rw [State.takesLevel, stageLevel_voice_other hne, State.takesLevel]

theorem stageLevel_trim_other {v w : Fin 16} (hne : w ≠ v) (level rate : Nat) (s : State) :
    (stageLevel level rate v s).voiceTrimOf w = s.voiceTrimOf w := by
  simp only [State.voiceTrimOf, stageLevel_voice_other hne, stageLevel_entry]

theorem flight_voices {r : BreakRecord} {p : Plan} {a b : Fin 16} (hp : r.plan = some p)
    (hv : p.voices = some (a, b)) : r.voices = [a, b] := by
  simp only [BreakRecord.voices, hp, hv]

/-- Settles O58: each voice of the break is trimmed once, and the two are different voices. -/
theorem voiceTrimStagesTheLevel : Obligations.VoiceTrimStagesTheLevel := by
  intro s src h c level rate rest hl hr hready hcode u takes trim target
  have body : byteAt ([BitVec.ofNat 8 c.val] ++ toBytes level 2 ++ toBytes rate 1) 0 = c.val := by
    rw [List.append_assoc]
    exact byteAt_channel c _
  have levelField : field ([BitVec.ofNat 8 c.val] ++ toBytes level 2 ++ toBytes rate 1) 1 2 = level := by
    rw [List.append_assoc]
    exact field_afterByte _ hl _
  have rateField : byteAt ([BitVec.ofNat 8 c.val] ++ toBytes level 2 ++ toBytes rate 1) 3 = rate := by
    rw [← field_byte]
    simp only [List.cons_append, List.nil_append, field_cons_succ]
    rw [field_skip _ _ (by decide), field_toBytes, Nat.mod_eq_of_lt (by omega)]
  refine ⟨fun noFlight => ?_, fun r p a b hfl hp hv hab => ?_⟩
  · refine answers_of_work (exec_voiceTrim s) hready hcode (by rfl) ?_
    have noFlight : u.flight c = none := noFlight
    simp only [voiceTrim, body, channelOf_val]
    rw [noFlight]
    rfl
  · refine answers_of_work (exec_voiceTrim s) hready hcode (by rfl) ?_
    have inFlight : u.flight c = some r := hfl
    have onceA : takes a = u.takesLevel a := rfl
    have onceB : takes b = u.takesLevel b := rfl
    have clamped : clampNat 1 255 rate = max rate 1 := by unfold clampNat; omega
    have kept : clampNat 1 255 (max rate 1) = max rate 1 := by unfold clampNat; omega
    have cut : (max rate 1 != rate) = decide (rate = 0) := by
      rw [Bool.eq_iff_iff, bne_iff_ne, decide_eq_true_iff]
      omega
    simp only [voiceTrim, body, channelOf_val, levelField, rateField, clampCode_eq, clampField]
    rw [inFlight]
    simp only [flight_voices hp hv, List.foldl_cons, List.foldl_nil, trimVoice_eq, clamped, cut,
      stageLevel_takes_other hab.symm, onceA, onceB]
    refine Prod.ext ?_ ?_
    · cases u.takesLevel a <;> cases u.takesLevel b <;> rfl
    · change stageLevel (min level 4095) (max rate 1) b
        (stageLevel (min level 4095) (max rate 1) a u) = _
      rw [stageLevel, stageLevel_takes_other hab.symm, stageLevel_voice_other hab.symm,
        stageLevel_trim_other hab.symm, stageLevel, kept]
      rfl

/-! ### CART_FIRE (R80, R81) -/

theorem exec_cartFire (s : State) :
    exec .cartFire s = runRow (hasCode 0x36) false (sized 5 cartFire) s := rfl

theorem holdClip_ready {n : Nat} {s : State} (hr : (s.entry n).state = .ready) :
    holdClip n s = some (s.setEntry n { s.entry n with hold := (s.entry n).hold + 1 }) := if_pos hr

theorem holdClip_notReady {n : Nat} {s : State} (hr : (s.entry n).state ≠ .ready) :
    holdClip n s = none := if_neg hr

theorem State.setVoice_twice (s : State) (v : Fin 16) (x y : Voice) :
    (s.setVoice v x).setVoice v y = s.setVoice v y := by
  simp [State.setVoice, State.setVoices]

/-- A RESERVED voice that holds its clip already is primed in place. -/
theorem primeVoice_held {v : Fin 16} {q : PrimeReq} {s : State}
    (hstate : (s.voice v).state = .reserved) (hclip : (s.voice v).clip = some q.clip)
    (hno : s.eventPending v = false) :
    (primeVoice v q s).2 = s.setVoice v { s.voice v with
        state := .primed, clip := some q.clip, index := 0, fraction := 0
        step := clampNat 32768 98304 (q.step.getD (baseStep (s.entry q.clip).rate))
        loop := primeLoop (s.entry q.clip) q.loop, startFrame := some q.start
        code := (primeRamp (min q.code Config.maxCode) q.ramp).1
        ramp := some (primeRamp (min q.code Config.maxCode) q.ramp).2, staged := none } := by
  simp only [primeVoice, hstate, hno, primeHold, hclip, ne_eq, not_true_eq_false, reduceCtorEq,
    or_self, if_false, if_true]

theorem clampNat_baseStep (r : RateClass) : clampNat 32768 98304 (baseStep r) = baseStep r := by
  cases r <;> rfl

/-- The claim of one voice takes the lowest FREE one and a hold on the clip (R43, R81). -/
theorem claimOne_free {c : Fin 4} {p : Purpose} {clip : Nat} {v : Fin 16} {free : List (Fin 16)}
    {s : State} (hv : s.freeVoices = v :: free) (hr : (s.entry clip).state = .ready) :
    claimOne c p clip s = .ok (v, (s.setEntry clip { s.entry clip with
        hold := (s.entry clip).hold + 1 }).setVoice v
          { Voice.freed with state := .reserved, owner := some ⟨c, p⟩, clip := some clip }) := by
  simp only [claimOne, hv, holdClip_ready hr]

/-- The state after a granted request for a cart (R81). -/
def cartPrimed (c : Fin 4) (clip level : Nat) (v : Fin 16) (s : State) : State :=
  ((s.setEntry clip { s.entry clip with hold := (s.entry clip).hold + 1 }).setCh c { s.ch c with
    carts := (s.ch c).carts ++ [⟨v, clip, (s.entry clip).spotKey,
      targetCode (min level 4095) (s.entry clip).trim, none⟩] }).setVoice v {
        Voice.freed with
        state := .primed, owner := some ⟨c, .cart⟩, clip := some clip
        step := baseStep (s.entry clip).rate, startFrame := some (nextBoundary s.clock.ac)
        code := targetCode (min level 4095) (s.entry clip).trim
        ramp := some ⟨targetCode (min level 4095) (s.entry clip).trim, 1, 0, false⟩ }

theorem setVoice_setCh (v : Fin 16) (x : Voice) (c : Fin 4) (y : Channel) (s : State) :
    (s.setVoice v x).setCh c y = (s.setCh c y).setVoice v x := rfl

theorem requestCart_granted {c : Fin 4} {clip level : Nat} {v : Fin 16} {free : List (Fin 16)}
    {s : State} (hf : s.formed) (hh : (s.ch c).state ≠ .halted) (hv : s.freeVoices = v :: free)
    (hno : s.eventPending v = false) (hr : (s.entry clip).state = .ready) :
    requestCart c clip level s =
      (.ok (v, nextBoundary s.clock.ac), cartPrimed c clip level v s) := by
  have mine (x : DirEntry) : (s.setEntry clip x).entry clip = x := by
    rw [entry_setEntry s clip clip x hf.2, if_pos rfl]
  have capped (t : Int) : min (targetCode (min level 4095) t) Config.maxCode =
      targetCode (min level 4095) t := Nat.min_eq_left (targetCode_le _ t)
  have held (t : State) : ((t.setVoice v { Voice.freed with
      state := .reserved, owner := some ⟨c, .cart⟩, clip := some clip }).voice v).state = .reserved := by
    rw [State.voice_setVoice_same]
  simp only [requestCart, hh, if_false, claimOne_free hv hr, setVoice_setCh]
  rw [primeVoice_held (held _) (by rw [State.voice_setVoice_same]) (by exact hno)]
  simp only [State.setVoice_twice, State.voice_setVoice_same, State.setVoice_entry,
    State.setCh_entry, mine, Option.getD_none, clampNat_baseStep, primeRamp, explicitRamp,
    State.setVoice_clock, State.setEntry_clock, State.setVoice_ch, State.setEntry_ch]
  have cap : (Config.maxCode : Nat) = 4095 := rfl
  simp only [cap] at capped ⊢
  simp only [capped]
  rfl

theorem requestCart_halted {c : Fin 4} {s : State} (hh : (s.ch c).state = .halted)
    (clip level : Nat) : requestCart c clip level s = (.error .state, refuseCart c s) := if_pos hh

theorem requestCart_noVoice {c : Fin 4} {s : State} (hh : (s.ch c).state ≠ .halted)
    (hv : s.freeVoices = []) (clip level : Nat) :
    requestCart c clip level s = (.error .noVoice, refuseCart c s) := by
  simp only [requestCart, if_neg hh, claimOne, hv]

theorem requestCart_notReady {c : Fin 4} {clip : Nat} {s : State} (hh : (s.ch c).state ≠ .halted)
    (hv : s.freeVoices ≠ []) (hr : (s.entry clip).state ≠ .ready) (level : Nat) :
    requestCart c clip level s = (.error .notFound, refuseCart c s) := by
  obtain ⟨v, more, some_⟩ := List.exists_cons_of_ne_nil hv
  simp only [requestCart, if_neg hh, claimOne, some_, holdClip_notReady hr]

/-- What CART_FIRE answers in range, by the outcome of its request. -/
theorem cartFire_refused {c : Fin 4} {b : List Byte} {clip level : Nat} {f : ErrFlag} {s t : State}
    (hc : byteAt b 0 = c.val) (hclip : field b 1 2 = clip) (hlevel : field b 3 2 = level)
    (hn : clip ≤ 1023) (hr : requestCart c clip (min level 4095) s = (.error f, t)) :
    cartFire b s = refuse f t := by
  simp only [cartFire, hc, channelOf_val, hclip, hlevel, if_neg (Nat.not_lt.2 hn), clampCode_eq, hr]

theorem cartFire_granted {c : Fin 4} {b : List Byte} {clip level : Nat} {v : Fin 16} {start : AC}
    {s t : State} (hc : byteAt b 0 = c.val) (hclip : field b 1 2 = clip)
    (hlevel : field b 3 2 = level) (hn : clip ≤ 1023)
    (hr : requestCart c clip (min level 4095) s = (.ok (v, start), t)) :
    cartFire b s = (.done (decide (4095 < level)) false
      (toBytes v.val 1 ++ toBytes start.toNat 4), t) := by
  simp only [cartFire, hc, channelOf_val, hclip, hlevel, if_neg (Nat.not_lt.2 hn), clampCode_eq, hr]

/-- Settles O49: the checks of the request in their order, then the claim and the priming. -/
theorem cartFirePrimesAVoice : Obligations.CartFirePrimesAVoice := by
  intro s src h channel clip level rest hclip hlevel hformed hready hcode u
  have body : [channel] ++ toBytes clip 2 ++ toBytes level 2 =
      channel :: (toBytes clip 2 ++ toBytes level 2) := rfl
  have first : byteAt ([channel] ++ toBytes clip 2 ++ toBytes level 2) 0 = channel.toNat := rfl
  have clipField : field ([channel] ++ toBytes clip 2 ++ toBytes level 2) 1 2 = clip := by
    rw [body]
    exact field_afterByte _ hclip _
  have levelField : field ([channel] ++ toBytes clip 2 ++ toBytes level 2) 3 2 = level := by
    rw [body, field_cons_succ, field_skip _ _ (by decide), field_toBytes,
      Nat.mod_eq_of_lt (by omega)]
  constructor
  · intro bad
    refine answers_of_work (exec_cartFire s) hready hcode (by rfl) ?_
    simp only [cartFire, first, clipField]
    by_cases hc : channel.toNat < 4
    · rw [channelOf_of_lt hc]
      exact if_pos (by omega)
    · rw [channelOf_of_le (by omega)]
      rfl
  intro c hc hn counted
  refine ⟨fun halted => ?_, fun on none_ => ?_, fun on free notReady => ?_,
    fun v free on hv hno hr => ?_⟩
  all_goals refine answers_of_work (exec_cartFire s) hready hcode (by rfl) ?_
  · exact cartFire_refused (first.trans hc) clipField levelField hn (requestCart_halted (s := u) halted ..)
  · exact cartFire_refused (first.trans hc) clipField levelField hn
      (requestCart_noVoice (s := u) on none_ ..)
  · exact cartFire_refused (first.trans hc) clipField levelField hn
      (requestCart_notReady (s := u) on free notReady _)
  · refine (cartFire_granted (s := u) (first.trans hc) clipField levelField hn
      (requestCart_granted hformed on hv hno hr)).trans ?_
    rw [cartPrimed, Nat.min_eq_left (Nat.min_le_right level 4095)]
    rfl

/-! ### CLOCK_SET (R91, R92) -/

theorem exec_clockSet (s : State) :
    exec .clockSet s = runRow (hasCode 0x12) false (sized 4 clockSet) s := rfl

theorem acField_toBytes (d : AC) : acField (toBytes d.toNat 4) 0 = d := by
  rw [acField, field_toBytes, Nat.mod_eq_of_lt (by exact d.isLt), BitVec.ofNat_toNat, BitVec.setWidth_eq]

theorem shiftClock_voice (d : AC) (s : State) (v : Fin 16) : (shiftClock d s).voice v =
    if (s.voice v).state = .primed then
      { s.voice v with startFrame := (s.voice v).startFrame.map (· + d) }
    else s.voice v := by
  change (s.voices.map _)[v.val] = _
  rw [Vector.getElem_map]
  rfl

theorem shiftClock_ch (d : AC) (s : State) (c : Fin 4) :
    (shiftClock d s).ch c = (s.ch c).shift d := by
  change (s.chans.map _)[c.val] = _
  rw [Vector.getElem_map]
  rfl

theorem shiftClock_keeps (d : AC) (s : State) :
    (shiftClock d s).rx = s.rx ∧ (shiftClock d s).lane = s.lane ∧ (shiftClock d s).cues = s.cues
      ∧ (shiftClock d s).memory = s.memory ∧ (shiftClock d s).asrun = s.asrun
      ∧ (shiftClock d s).alert = s.alert ∧ (shiftClock d s).gpi = s.gpi
      ∧ (shiftClock d s).gpo = s.gpo ∧ (shiftClock d s).reserve = s.reserve
      ∧ (shiftClock d s).forming = s.forming ∧ (shiftClock d s).pending = s.pending := by
  simp [shiftClock, voiceShift]

/-- The blocks with moments of their own, each by its own shift. -/
theorem shiftClock_blocks (d : AC) (s : State) :
    (shiftClock d s).clock = s.clock.shift d ∧ (shiftClock d s).tx = s.tx.shift d
      ∧ (shiftClock d s).store = storeShift d s.store ∧ (shiftClock d s).cmd = s.cmd.shift d
      ∧ (shiftClock d s).events = s.events.map (fun e => { e with shift := e.shift + d }) := by
  simp [shiftClock, voiceShift]

/-- Settles O48: the shift moves each block by its own rule. -/
theorem clockSetMovesTheMoments : Obligations.ClockSetMovesTheMoments := by
  intro s src h d rest hready hcode
  refine ⟨fun ⟨c, hair⟩ => ?_, fun hair => ⟨shiftClock d (taken s rest), ?_⟩⟩
  · refine answers_of_work (exec_clockSet s) hready hcode (toBytes_length _ _) (if_pos ?_)
    exact List.any_eq_true.2 ⟨c, by fin_cases c <;> simp, hair⟩
  · have off : (allChannels.any fun c => ((taken s rest).ch c).state.onAir) = false :=
      List.any_eq_false.2 fun c _ => ne_true_of_eq_false (hair c)
    obtain ⟨clock, tx, store, cmd, events⟩ := shiftClock_blocks d (taken s rest)
    refine ⟨?_, clock, shiftClock_voice d _, shiftClock_ch d _, tx, store, cmd, events,
      shiftClock_keeps d (taken s rest)⟩
    refine answers_of_work (exec_clockSet s) hready hcode (toBytes_length _ _) ?_
    simp only [clockSet, off, acField_toBytes, clock]
    rfl

end Sys2Proof.Machine
end

section
/-! PROOFS. The clip store's commands on an ingest and on the ring: INGEST_STOP and RING_RETIRE. -/

namespace Sys2Proof.Machine

open Claim

variable {s : State} {src : Byte} {h : CmdHeader} {rest : List Command}

theorem exec_ingestStop (s : State) :
    exec .ingestStop s = runRow (hasCode 0x24) false (sized 2 ingestStop) s := rfl

theorem exec_ringRetire (s : State) :
    exec .ringRetire s = runRow (hasCode 0x25) false (sized 2 ringRetire) s := rfl

theorem field_clip {n : Nat} (hn : n < 65536) : field (toBytes n 2) 0 2 = n := by
  rw [field_toBytes]
  exact Nat.mod_eq_of_lt (by omega)

/-! ### INGEST_STOP (R30, R32) -/

/-- A value that is not the default is found under its key, whatever the list. -/
theorem lookupD_storeD_self {α : Type} [DecidableEq α] {d v : α} (hv : v ≠ d) (n : Nat)
    (l : List (Nat × α)) : lookupD d (storeD d l n v) n = v := by
  induction l with
  | nil => simp [storeD, hv, lookupD]
  | cons p l ih =>
    obtain ⟨k, x⟩ := p
    unfold storeD
    rw [if_neg hv, if_neg hv]
    split
    · simp [lookupD]
    · split
      · simp [lookupD]
      · next hne => rw [lookupD, if_neg (Ne.symm hne), ih]

theorem entry_setEntry_self {n : Nat} {e : DirEntry} (he : e ≠ .blank) (s : State) :
    (s.setEntry n e).entry n = e := lookupD_storeD_self he n s.store.directory

theorem ingestStop_filling {n : Nat} {b : List Byte} (hb : field b 0 2 = n) (hn : n ≤ 1023)
    (he : (s.entry n).state = .filling) : ingestStop b s =
      (.done false false (toBytes (endIngest .commandStop s).store.lastReport.outcome.code 1
        ++ toBytes (endIngest .commandStop s).store.lastReport.length 4),
        endIngest .commandStop s) := by
  simp only [ingestStop, hb, gt_iff_lt, Nat.not_lt.2 hn, if_false, he]

/-- The outcome and the length that INGEST_STOP answers are those it reports. -/
theorem ingestStop_reports {n m : Nat} {b : List Byte} {o : IngestOutcome} {k : Nat} {t : State}
    (hb : field b 0 2 = n) (hn : n ≤ 1023) (he : (s.entry n).state = .filling)
    (hi : endIngest .commandStop s = reportIngest m o k t) : ingestStop b s =
      (.done false false (toBytes o.code 1 ++ toBytes k 4), reportIngest m o k t) := by
  rw [ingestStop_filling hb hn he, hi]
  simp only [reportIngest, raiseAlert_store, State.setStore_store]

theorem ingestStop_otherwise {n : Nat} {b : List Byte} (hb : field b 0 2 = n) (hn : n ≤ 1023) :
    ((s.entry n).state = .armed → ingestStop b s = accept (disarm n s))
      ∧ ((s.entry n).state = .empty → ingestStop b s = refuse .notFound s)
      ∧ ((s.entry n).state = .ready → ingestStop b s = refuse .state s) := by
  refine ⟨fun he => ?_, fun he => ?_, fun he => ?_⟩
  all_goals simp only [ingestStop, hb, gt_iff_lt, Nat.not_lt.2 hn, if_false, he]

/-- A ring ingest that kept frames becomes READY and joins the ring list. -/
theorem endIngest_ring {s : State} {g : Ingest} (o : IngestOutcome)
    (hg : s.store.engine = some g) (hk : keptLength (s.entry g.arm.clip) g ≠ 0)
    (hr : (s.entry g.arm.clip).region = .ring) :
    endIngest o s = reportIngest g.arm.clip o (keptLength (s.entry g.arm.clip) g)
      (joinRing g.arm.clip (s.setEntry g.arm.clip { s.entry g.arm.clip with
        state := .ready, length := keptLength (s.entry g.arm.clip) g
        damage := min g.failed 65535 })) := by
  simp only [endIngest, hg, hk, if_false, hr, if_true]

theorem ceilDiv_page (n : Nat) : pagesOf n = (n + 65535) / 65536 := by
  simp only [pagesOf, ceilDiv, Config.pageWords, Nat.add_sub_assoc, Nat.one_le_ofNat,
    Nat.reduceSub]

theorem ingestStop_keepsTheClip : ingestStopKeepsTheClip := by
  intro s src h n rest g hn hready hcode hfill hg hclip u e kept keptWords ended
  subst hclip
  have hb := field_clip (show g.arm.clip < 65536 by omega)
  have run {r : Reply} {t : State} := answers_of_work (r := r) (t := t) (exec_ingestStop s) hready
    hcode (toBytes_length _ 2)
  have hg : u.store.engine = some g := hg
  have hkept : keptLength (u.entry g.arm.clip) g = kept := rfl
  constructor
  · intro none_
    refine run ?_
    have same : ended .emptyClip (u.setEntry g.arm.clip .blank) =
      reportIngest g.arm.clip .emptyClip kept (emptyEntry g.arm.clip u) := rfl
    rw [ingestStop_reports (s := u) hb hn hfill (endIngest_of_nothing _ hg (hkept.trans none_)),
      same, none_]
    rfl
  intro some_ v
  refine ⟨fun lib => run ?_, fun ring => run ?_⟩
  · exact ingestStop_reports (s := u) hb hn hfill
      (endIngest_library _ hg (by rw [hkept]; omega) lib)
  · have ready_ : v.entry g.arm.clip = { e with
        state := .ready, length := kept, damage := min g.failed 65535 } :=
      entry_setEntry_self (by simp [DirEntry.blank]) u
    rw [ingestStop_reports (s := u) hb hn hfill
      (endIngest_ring _ hg (by rw [hkept]; omega) ring)]
    refine Prod.ext rfl ?_
    change ended .commandStop (joinRing g.arm.clip v) = _
    rw [joinRing, ready_]
    simp only [Store.ringAdvance, ceilDiv_page, DirEntry.words, List.isEmpty_iff]
    rfl

/-! ### RING_RETIRE (R34) -/

theorem ringRetire_eq {k : Nat} {b : List Byte} (hb : field b 0 2 = k) (s : State) :
    ringRetire b s =
      (.done (decide (1024 < k)) false (toBytes (retire (min k 1024) s).1 2),
        (retire (min k 1024) s).2) := by
  have put : clampNat 0 1024 k = min k 1024 := by unfold clampNat; omega
  have cut : (min k 1024 != k) = decide (1024 < k) := by
    rw [Bool.eq_iff_iff, bne_iff_ne, decide_eq_true_iff]
    omega
  simp only [ringRetire, hb, clampField, put, cut]

theorem retire_empty (k : Nat) (hl : s.store.ringList = []) : retire k s = (0, s) := by
  cases k with
  | zero => rfl
  | succ k => simp only [retire, hl]

theorem retire_held {n : Nat} {more : List Nat} (k : Nat) (hl : s.store.ringList = n :: more)
    (hh : 0 < (s.entry n).hold) : retire k s = (0, s) := by
  cases k with
  | zero => rfl
  | succ k => simp only [retire, hl, gt_iff_lt, hh, if_true]

theorem retire_free {n : Nat} {more : List Nat} (k : Nat) (hl : s.store.ringList = n :: more)
    (hh : (s.entry n).hold = 0) :
    retire (k + 1) s = ((retire k (retireOldest s)).1 + 1, (retire k (retireOldest s)).2) := by
  simp only [retire, hl, gt_iff_lt, hh, Nat.lt_irrefl, if_false]

theorem retire_none (s : State) : retire 0 s = (0, s) := rfl

theorem two_zero : toBytes 0 2 = [0, 0] := by decide

theorem two_one : toBytes (0 + 1) 2 = [0, 1] := by decide

theorem ingestStop_endsOrDisarms : ingestStopEndsOrDisarms := by
  constructor
  · intro s src h n rest hn hready hcode u
    have hb := field_clip (show n < 65536 by omega)
    have run {r : Reply} {t : State} := answers_of_work (r := r) (t := t) (exec_ingestStop s)
      hready hcode (toBytes_length _ 2)
    obtain ⟨armed, empty, ready_⟩ := ingestStop_otherwise (s := u) hb hn
    refine ⟨fun he => run (empty he), fun he => run (ready_ he), fun he => run (armed he),
      fun g hfill hg hclip words mono lib => ?_⟩
    subst hclip
    have kept := keptLength_mono (show (u.entry g.arm.clip).layout = .mono from mono) g
    have ends := endIngest_library (s := u) .commandStop hg (by rw [kept]; omega) lib
    rw [kept] at ends
    exact run (ingestStop_reports (s := u) hb hn hfill ends)
  · intro s src h k rest hk hready hcode u
    have hb := field_clip hk
    have run {r : Reply} {t : State} := answers_of_work (r := r) (t := t) (exec_ringRetire s)
      hready hcode (toBytes_length _ 2)
    refine ⟨fun none_ => run ?_, fun n more hl hh => run ?_, fun n hl hh pos => run ?_⟩
    · have stays : retire (min k 1024) u = (0, u) := by
        rcases none_ with rfl | hl
        · exact retire_none u
        · exact retire_empty _ hl
      rw [ringRetire_eq hb, stays, two_zero]
    · rw [ringRetire_eq hb, retire_held (s := u) _ hl hh, two_zero]
    · obtain ⟨j, hj⟩ : ∃ j, min k 1024 = j + 1 := ⟨min k 1024 - 1, by omega⟩
      rw [ringRetire_eq hb, hj, retire_free (s := u) j hl hh, retireOldest_single (s := u) hl,
        retire_empty _ (by rfl), two_one]
      rfl

/-- The boundary page of a ring list: its oldest clip's first page, the current page with none (R21). -/
def State.boundaryOf (s : State) : List Nat → Nat
  | [] => s.store.currentPage
  | m :: _ => (s.entry m).firstPage

theorem retireOldest_eq {n : Nat} {more : List Nat} (hl : s.store.ringList = n :: more) :
    retireOldest s = (s.setStore { s.store with
      ringList := more, boundaryPage := s.boundaryOf more }).setEntry n .blank := by
  cases more with
  | nil => exact retireOldest_single hl
  | cons m more => exact retireOldest_cons hl

/-- The clips that RING_RETIRE of k takes. -/
def State.retired (s : State) (k : Nat) : List Nat :=
  (s.store.ringList.take k).takeWhile fun n => (s.entry n).hold == 0

theorem retire_store (k : Nat) (s : State) : ∃ st, (retire k s).2 = s.setStore st := by
  induction k generalizing s with
  | zero => exact ⟨s.store, rfl⟩
  | succ k ih =>
    cases hl : s.store.ringList with
    | nil => exact ⟨s.store, by rw [retire_empty _ hl]; rfl⟩
    | cons n more =>
      by_cases hh : (s.entry n).hold = 0
      · obtain ⟨st, hst⟩ := ih (retireOldest s)
        refine ⟨st, ?_⟩
        rw [retire_free k hl hh, hst, retireOldest_eq hl]
        rfl
      · exact ⟨s.store, by rw [retire_held _ hl (by omega)]; rfl⟩

theorem takeWhile_congr {α : Type} {p q : α → Bool} {l : List α} (h : ∀ a ∈ l, p a = q a) :
    l.takeWhile p = l.takeWhile q := by
  induction l with
  | nil => rfl
  | cons a l ih =>
    rw [List.takeWhile_cons, List.takeWhile_cons, h a List.mem_cons_self,
      ih fun b hb => h b (List.mem_cons_of_mem a hb)]

/-- In t the clips gone have left the ring list of s, from its front, and are EMPTY. -/
def State.Retired (s : State) (gone : List Nat) (t : State) : Prop :=
  (∀ n, t.entry n = if n ∈ gone then DirEntry.blank else s.entry n)
    ∧ t.store = { s.store with
        directory := t.store.directory
        ringList := s.store.ringList.drop gone.length
        boundaryPage := if gone = [] then s.store.boundaryPage
          else s.boundaryOf (s.store.ringList.drop gone.length) }

theorem State.retired_nil (s : State) : s.Retired [] s := by
  simp [State.Retired]

theorem retireOldest_entry (hf : s.formed) {n : Nat} {more : List Nat}
    (hl : s.store.ringList = n :: more) (m : Nat) :
    (retireOldest s).entry m = if m = n then DirEntry.blank else s.entry m := by
  rw [retireOldest_eq hl]
  exact entry_setEntry _ n m _ hf.2

theorem retireOldest_formed (hf : s.formed) : (retireOldest s).formed := by
  cases hl : s.store.ringList with
  | nil => simpa only [retireOldest, hl] using hf
  | cons n more =>
    rw [retireOldest_eq hl]
    exact ⟨hf.1, setEntry_canonical _ n _ hf.2⟩

theorem retireOldest_ringList {n : Nat} {more : List Nat} (hl : s.store.ringList = n :: more) :
    (retireOldest s).store.ringList = more := by
  rw [retireOldest_eq hl]
  rfl

theorem retireOldest_store {n : Nat} {more : List Nat} (hl : s.store.ringList = n :: more) :
    ∃ d, (retireOldest s).store = { s.store with
      directory := d, ringList := more, boundaryPage := s.boundaryOf more } := by
  rw [retireOldest_eq hl]
  exact ⟨_, rfl⟩

/-- One clip more at the front. -/
theorem State.retired_cons (hf : s.formed) {n : Nat} {more gone : List Nat} {t : State}
    (hl : s.store.ringList = n :: more) (hn : n ∉ more)
    (ht : (retireOldest s).Retired gone t) : s.Retired (n :: gone) t := by
  obtain ⟨entries, store⟩ := ht
  refine ⟨fun m => ?_, ?_⟩
  · rw [entries, retireOldest_entry hf hl]
    simp only [List.mem_cons]
    split
    · simp [*]
    · simp [*]
  · obtain ⟨d, left⟩ := retireOldest_store hl
    rw [store, hl, left, List.length_cons, List.drop_succ_cons]
    cases gone with
    | nil => rfl
    | cons a gone =>
      have same : (retireOldest s).boundaryOf (more.drop (a :: gone).length) =
          s.boundaryOf (more.drop (a :: gone).length) := by
        cases hm : more.drop (a :: gone).length with
        | nil => rw [State.boundaryOf, left, State.boundaryOf]
        | cons m l =>
          have hmem : m ∈ more := List.mem_of_mem_drop (hm ▸ List.mem_cons_self)
          have hne : m ≠ n := fun heq => hn (heq ▸ hmem)
          simp only [State.boundaryOf, retireOldest_entry hf hl, if_neg hne]
      rw [if_neg (List.cons_ne_nil _ _), if_neg (List.cons_ne_nil _ _), same]

/-- A retirement of k clips, by induction on k, one oldest clip at a time. -/
theorem retire_retired (k : Nat) {s : State} (hf : s.formed) (hd : s.store.ringList.Nodup) :
    (retire k s).1 = (s.retired k).length ∧ s.Retired (s.retired k) (retire k s).2 := by
  induction k generalizing s with
  | zero => exact ⟨rfl, s.retired_nil⟩
  | succ k ih =>
    cases hl : s.store.ringList with
    | nil =>
      have none_ : s.retired (k + 1) = [] := by simp only [State.retired, hl, List.take_nil,
        List.takeWhile_nil]
      rw [retire_empty _ hl, none_]
      exact ⟨rfl, s.retired_nil⟩
    | cons n more =>
      by_cases hh : (s.entry n).hold = 0
      · have notIn : n ∉ more := (List.nodup_cons.1 (hl ▸ hd)).1
        have left := retireOldest_ringList hl
        have gone : s.retired (k + 1) = n :: (retireOldest s).retired k := by
          simp only [State.retired, hl, left, List.take_succ_cons, List.takeWhile_cons, hh,
            beq_self_eq_true, if_true, List.cons.injEq, true_and]
          refine takeWhile_congr fun m hm => ?_
          rw [retireOldest_entry hf hl, if_neg]
          rintro rfl
          exact notIn (List.mem_of_mem_take hm)
        obtain ⟨count, retired⟩ := ih (retireOldest_formed hf)
          (left ▸ (List.nodup_cons.1 (hl ▸ hd)).2)
        rw [retire_free k hl hh, gone, count]
        exact ⟨rfl, State.retired_cons hf hl notIn retired⟩
      · have none_ : s.retired (k + 1) = [] := by
          simp [State.retired, hl, hh]
        rw [retire_held _ hl (Nat.pos_of_ne_zero hh), none_]
        exact ⟨rfl, s.retired_nil⟩

theorem ringRetire_takesTheOldest : ringRetireTakesTheOldest := by
  intro s src h k rest hk hf hd hready hcode gone left
  have hb := field_clip hk
  obtain ⟨count, entries, store⟩ := retire_retired (min k 1024) (s := taken s rest) hf hd
  obtain ⟨st, beside⟩ := retire_store (min k 1024) (taken s rest)
  refine ⟨(retire (min k 1024) (taken s rest)).2, ?_, entries, ?_, ?_⟩
  · refine answers_of_work (exec_ringRetire s) hready hcode (toBytes_length _ 2) ?_
    rw [ringRetire_eq hb, count]
    rfl
  · refine store.trans ?_
    cases hleft : left with
    | nil =>
      have hleft : (taken s rest).store.ringList.drop
        ((taken s rest).retired (min k 1024)).length = [] := hleft
      rw [hleft]
      rfl
    | cons m l =>
      have hleft : (taken s rest).store.ringList.drop
        ((taken s rest).retired (min k 1024)).length = m :: l := hleft
      rw [hleft]
      rfl
  · rw [beside]
    exact ⟨rfl, rfl, rfl, rfl, rfl, rfl⟩

/-- Settles O53, command by command. -/
theorem ingestStopAndRingRetire : Obligations.IngestStopAndRingRetire :=
  ⟨ingestStop_endsOrDisarms, ingestStop_keepsTheClip, ringRetire_takesTheOldest⟩

end Sys2Proof.Machine
end

section
/-! PROOFS. INGEST_ARM: its checks in their order, and the entry an accepted arm fills (R24 to R26). -/

namespace Sys2Proof.Machine

open Claim

variable {s : State} {src : Byte} {h : CmdHeader} {rest : List Command}

theorem exec_ingestArm (s : State) :
    exec .ingestArm s = runRow (hasCode 0x23) false (sized 19 ingestArm) s := rfl

/-! ### The fields of a body (check 3) -/

theorem regionOf_eq (n : Nat) :
    regionOf n = if n ≤ 1 then some (if n = 1 then .ring else .library) else none := by
  unfold regionOf
  split <;> grind

theorem layoutOf_eq (n : Nat) :
    layoutOf n = if n ≤ 1 then some (if n = 1 then .stereo else .mono) else none := by
  unfold layoutOf
  split <;> grind

theorem flagOf_eq (n : Nat) : flagOf n = if n ≤ 1 then some (n == 1) else none := by
  unfold flagOf
  split <;> grind

/-- The fields of a body with known values. -/
def armFieldsOf (b : List Byte) : ArmFields where
  arm := ⟨field b 0 2, byteAt b 5, byteAt b 6, field b 14 4⟩
  region := if byteAt b 2 = 1 then .ring else .library
  firstPage := field b 3 2
  layout := if byteAt b 7 = 1 then .stereo else .mono
  rate := if field b 8 2 = 32000 then .r32000 else if field b 8 2 = 44100 then .r44100 else .r48000
  spotKey := BitVec.ofNat 32 (field b 10 4)
  now := !(byteAt b 18 == 1)

theorem rateOf_eq (n : Nat) : rateOf n = if n = 32000 ∨ n = 44100 ∨ n = 48000 then
    some (if n = 32000 then .r32000 else if n = 44100 then .r44100 else .r48000) else none := by
  unfold rateOf
  grind

theorem armFields_eq (b : List Byte) :
    armFields b = if armKnown b then some (armFieldsOf b) else none := by
  unfold armFields
  rw [regionOf_eq, layoutOf_eq, rateOf_eq, flagOf_eq]
  by_cases h2 : byteAt b 2 ≤ 1
  · by_cases h7 : byteAt b 7 ≤ 1
    · by_cases h8 : field b 8 2 = 32000 ∨ field b 8 2 = 44100 ∨ field b 8 2 = 48000
      · by_cases h18 : byteAt b 18 ≤ 1
        · simp only [h2, h7, h8, h18, if_true, armKnown, true_and, armFieldsOf, acField]
          grind
        · simp [h2, h7, h8, h18, armKnown]
      · simp [h2, h7, h8, armKnown]
    · simp [h2, h7, armKnown]
  · simp [h2, armKnown]

/-! ### The checks in their order -/

/-- The flag of the first check that fails. -/
def firstFlag (l : List (Bool × ErrFlag)) : Option ErrFlag := (l.find? fun q => q.1).map fun q => q.2

theorem firstFlag_cons (c : Bool) (f : ErrFlag) (l : List (Bool × ErrFlag)) :
    firstFlag ((c, f) :: l) = if c = true then some f else firstFlag l := by
  cases c <;> rfl

theorem firstFlag_nil : firstFlag [] = none := rfl

theorem armSpan_eq (s : State) (page limit : Nat) :
    armSpan s.store.lp page limit = (page, armEnd s page limit) := by
  simp only [armSpan, armEnd, pagesFor, ceilDiv_page]

theorem clipInSpan_eq (first last n : Nat) (e : DirEntry) :
    clipInSpan (first, last) (n, e) = clipOnPages first last e := by
  simp only [clipInSpan, clipOnPages, DirEntry.span, Span.overlaps, ceilDiv_page, DirEntry.words,
    pagesFor, Bool.and_assoc]
  rfl

theorem ringFull_eq (st : Store) : st.ringFull = (!st.ringList.isEmpty
    && (st.boundaryPage + (4096 - st.lp) - st.currentPage) % (4096 - st.lp) == 0) := by
  unfold Store.ringFull Store.freePages Store.ringPages
  cases st.ringList.isEmpty <;> rfl

theorem armCheck_eq {b : List Byte} (hb : armKnown b) (s : State) :
    armCheck (armFieldsOf b) s = firstFlag (armChecks s b) := by
  have h2 : byteAt b 2 ≤ 1 := hb.1
  have lib : ((armFieldsOf b).region == .library) = !(byteAt b 2 == 1) := by
    simp only [armFieldsOf]
    by_cases h : byteAt b 2 = 1 <;> simp [h]
  have now : (armFieldsOf b).now = (byteAt b 18 == 0) := by
    have h18 : byteAt b 18 ≤ 1 := hb.2.2.2.1
    simp only [armFieldsOf]
    grind
  have span : (armFieldsOf b).span s.store.lp =
      (field b 3 2, armEnd s (field b 3 2) (field b 14 4)) := armSpan_eq ..
  have spans (sp : Nat × Nat) : (s.reservedSpans.any fun r => r.overlaps sp) =
      s.store.directory.any fun p => p.2.region == .library
        && (p.2.state == .armed || p.2.state == .filling)
        && (s.store.armOf p.1).any fun a => decide (p.2.firstPage < sp.2)
          && decide (sp.1 < armEnd s p.2.firstPage a.limit) := by
    rw [State.reservedSpans, List.any_filterMap]
    refine List.any_congr rfl fun p => ?_
    by_cases reserved : p.2.region = .library ∧ (p.2.state = .armed ∨ p.2.state = .filling)
    · rw [if_pos reserved]
      cases s.store.armOf p.1 <;> simp [reserved, armSpan_eq, Span.overlaps]
    · rw [if_neg reserved]
      grind
  have held (sp : Nat × Nat) : ((s.clipsInSpan sp).any fun p => decide (p.2.hold > 0)) =
      s.store.directory.any fun p => clipOnPages sp.1 sp.2 p.2 && decide (0 < p.2.hold) := by
    rw [State.clipsInSpan, List.any_filter]
    exact List.any_congr rfl fun p => by rw [← clipInSpan_eq sp.1 sp.2 p.1]
  unfold armCheck armChecks
  simp only [firstFlag_cons, firstFlag_nil, lib, now, span, spans, held, ringFull_eq, Bool.not_not,
    Store.ringPages, State.locked, Bool.and_assoc]
  rfl

/-! ### An accepted arm -/

/-- The entries of a list of clips made EMPTY. -/
def emptyAll (l : List Nat) (s : State) : State := l.foldl (fun t n => emptyEntry n t) s

theorem emptyAll_formed (l : List Nat) {s : State} (hf : s.formed) : (emptyAll l s).formed := by
  induction l generalizing s with
  | nil => exact hf
  | cons n l ih => exact ih ⟨hf.1, setEntry_canonical s n _ hf.2⟩

theorem emptyAll_entry (l : List Nat) {s : State} (hf : s.formed) (m : Nat) :
    (emptyAll l s).entry m = if m ∈ l then DirEntry.blank else s.entry m := by
  induction l generalizing s with
  | nil => simp [emptyAll]
  | cons n l ih =>
    have step : (emptyEntry n s).entry m = if m = n then DirEntry.blank else s.entry m :=
      entry_setEntry s n m _ hf.2
    rw [emptyAll, List.foldl_cons]
    refine (ih (s := emptyEntry n s) ⟨hf.1, setEntry_canonical s n _ hf.2⟩).trans ?_
    rw [step]
    simp only [List.mem_cons]
    grind

theorem emptyAll_store (l : List Nat) (s : State) :
    ∃ d, emptyAll l s = s.setStore { s.store with directory := d } := by
  induction l generalizing s with
  | nil => exact ⟨s.store.directory, rfl⟩
  | cons n l ih =>
    obtain ⟨d, hd⟩ := ih (emptyEntry n s)
    exact ⟨d, hd⟩

/-- In a canonical directory the listed entries are those found under their numbers. -/
theorem mem_directory_iff {l : List (Nat × DirEntry)} (hl : Canonical DirEntry.blank l) (n : Nat)
    (e : DirEntry) : (n, e) ∈ l ↔ e ≠ .blank ∧ lookupD DirEntry.blank l n = e := by
  obtain ⟨rising, filled⟩ := hl
  induction l with
  | nil => simp [lookupD, eq_comm]
  | cons p l ih =>
    obtain ⟨k, x⟩ := p
    have rest := List.pairwise_cons.1 rising
    have above : n ≤ k → ∀ e, (n, e) ∉ l := fun hn e hmem => by
      have := rest.1 _ hmem
      omega
    rw [lookupD, List.mem_cons]
    by_cases hk : k = n
    · subst hk
      have hx : x ≠ DirEntry.blank := filled _ List.mem_cons_self
      simp only [if_true, Prod.mk.injEq, true_and, above (le_refl k), or_false]
      grind
    · rw [if_neg hk, ← ih rest.2 fun p hp => filled p (List.mem_cons_of_mem _ hp)]
      simp only [Prod.mk.injEq, Ne.symm hk, false_and, false_or]

/-- The clips an accepted library arm empties. -/
theorem mem_clipsInSpan (hf : s.formed) (first last m : Nat) :
    m ∈ (s.clipsInSpan (first, last)).map (fun p => p.1) ↔
      clipOnPages first last (s.entry m) = true := by
  have blank : clipOnPages first last .blank = false := rfl
  simp only [State.clipsInSpan, List.mem_map, List.mem_filter]
  constructor
  · rintro ⟨⟨n, e⟩, ⟨hmem, on⟩, rfl⟩
    rw [clipInSpan_eq] at on
    rw [State.entry, ((mem_directory_iff hf.2 n e).1 hmem).2, on]
  · intro on
    refine ⟨(m, s.entry m), ⟨(mem_directory_iff hf.2 m _).2 ⟨?_, rfl⟩, ?_⟩, rfl⟩
    · intro isBlank
      rw [isBlank, blank] at on
      cases on
    · rw [clipInSpan_eq, on]

/-- A start with room fills the entry from its page (R26). -/
theorem startIngest_of_room {a : Arm} {e : DirEntry} (start : Option (AC × AC))
    (he : s.entry a.clip = e) (room : e.region = .ring → s.store.ringFull = false) :
    startIngest a start s = (s.setEntry a.clip { e with
        state := .filling, firstPage := if e.region = .ring then s.store.currentPage
          else e.firstPage }).setStore { s.store with
        directory := (s.setEntry a.clip { e with
          state := .filling, firstPage := if e.region = .ring then s.store.currentPage
            else e.firstPage }).store.directory
        armList := s.store.armList.filter fun x => x.clip != a.clip
        engine := some ⟨a, 0, 0, start, none, [], none⟩ } := by
  unfold startIngest
  rw [he]
  refine if_neg fun ⟨ring, full⟩ => ?_
  have same : s.store.ringFull = true := full
  rw [room ring] at same
  cases same

theorem applyArm_eq (b : List Byte) (s : State) : ∃ l, applyArm (armFieldsOf b) s =
    (if (armFieldsOf b).now then startIngest (armFieldsOf b).arm none
        ((emptyAll l s).setEntry (field b 0 2) (armFieldsOf b).entry)
      else ((emptyAll l s).setEntry (field b 0 2) (armFieldsOf b).entry).setStore
        { ((emptyAll l s).setEntry (field b 0 2) (armFieldsOf b).entry).store with
          armList := (emptyAll l s).store.armList ++ [(armFieldsOf b).arm] })
    ∧ (s.formed → ∀ m, m ∈ l ↔ ¬byteAt b 2 = 1 ∧
        clipOnPages (field b 3 2) (armEnd s (field b 3 2) (field b 14 4)) (s.entry m) = true) := by
  refine ⟨if (armFieldsOf b).region = .library then
    (s.clipsInSpan ((armFieldsOf b).span s.store.lp)).map fun p => p.1 else [], rfl,
    fun hf m => ?_⟩
  have span : (armFieldsOf b).span s.store.lp =
      (field b 3 2, armEnd s (field b 3 2) (field b 14 4)) := armSpan_eq ..
  by_cases ring : byteAt b 2 = 1
  · simp [armFieldsOf, ring]
  · have lib : (armFieldsOf b).region = .library := if_neg ring
    rw [if_pos lib, span, mem_clipsInSpan hf]
    simp [ring]

/-- What INGEST_ARM does in range with an EMPTY entry and known values. -/
theorem ingestArm_checked {b : List Byte} (hn : field b 0 2 ≤ 1023)
    (he : (s.entry (field b 0 2)).state = .empty) (hb : armKnown b) :
    (∀ f, firstFlag (armChecks s b) = some f → ingestArm b s = refuse f s)
      ∧ (firstFlag (armChecks s b) = none → ingestArm b s = accept (applyArm (armFieldsOf b) s)) := by
  have fields : armFields b = some (armFieldsOf b) := by rw [armFields_eq, if_pos hb]
  refine ⟨fun f hf => ?_, fun hf => ?_⟩
  all_goals simp only [ingestArm, gt_iff_lt, Nat.not_lt.2 hn, if_false, he, ne_eq, not_true_eq_false,
    fields, armCheck_eq hb, hf]

/-- A NOW ring arm that passes the checks finds room in the ring (check 8 of R24). -/
theorem ring_room {b : List Byte} (hc : firstFlag (armChecks s b) = none) (now : byteAt b 18 = 0)
    (ring : byteAt b 2 = 1) : s.store.ringFull = false := by
  have none_ : (armChecks s b).find? (fun q => q.1) = none := Option.map_eq_none_iff.1 hc
  have fifth := List.find?_eq_none.1 none_
    (byteAt b 18 == 0 && byteAt b 2 == 1 && !s.store.ringList.isEmpty
      && (s.store.boundaryPage + (4096 - s.store.lp) - s.store.currentPage) % (4096 - s.store.lp) == 0,
      .noRoom) (by simp [armChecks])
  rw [ringFull_eq]
  simpa [now, ring] using fifth

/-- The entry an arm fills before its start is the one its body describes. -/
theorem armFieldsOf_entry (b : List Byte) : (armFieldsOf b).entry = armedEntry b
    (if byteAt b 18 = 1 then .armed else .filling) (if byteAt b 2 = 1 then 0 else field b 3 2) := by
  simp only [ArmFields.entry, armFieldsOf, armedEntry]
  by_cases cue : byteAt b 18 = 1 <;> by_cases ring : byteAt b 2 = 1 <;> simp [cue, ring]

theorem applyArm_cue {b : List Byte} (hf : s.formed) (cue : byteAt b 18 = 1) :
    (∀ m, m ≠ field b 0 2 → (applyArm (armFieldsOf b) s).entry m =
        if ¬byteAt b 2 = 1 ∧
            clipOnPages (field b 3 2) (armEnd s (field b 3 2) (field b 14 4)) (s.entry m) = true
          then DirEntry.blank else s.entry m)
      ∧ (applyArm (armFieldsOf b) s).entry (field b 0 2) =
        armedEntry b .armed (if byteAt b 2 = 1 then 0 else field b 3 2)
      ∧ applyArm (armFieldsOf b) s = s.setStore { s.store with
          directory := (applyArm (armFieldsOf b) s).store.directory
          armList := s.store.armList ++ [(armFieldsOf b).arm] } := by
  obtain ⟨l, apply, mem⟩ := applyArm_eq b s
  obtain ⟨d, hd⟩ := emptyAll_store l s
  have now : (armFieldsOf b).now = false := by simp [armFieldsOf, cue]
  have entries (m : Nat) := entry_setEntry (emptyAll l s) (field b 0 2) m (armFieldsOf b).entry
    (emptyAll_formed l hf).2
  rw [now, if_neg Bool.false_ne_true] at apply
  have find (m : Nat) : (applyArm (armFieldsOf b) s).entry m =
      ((emptyAll l s).setEntry (field b 0 2) (armFieldsOf b).entry).entry m := by rw [apply]; rfl
  refine ⟨fun m hm => ?_, ?_, ?_⟩
  · rw [find, entries, if_neg hm, emptyAll_entry l hf]
    simp only [mem hf m]
  · rw [find, entries, if_pos rfl, armFieldsOf_entry, if_pos cue]
  · rw [apply, hd]
    rfl

theorem applyArm_now {b : List Byte} (hf : s.formed) (hc : firstFlag (armChecks s b) = none)
    (hnow : byteAt b 18 = 0) :
    (∀ m, m ≠ field b 0 2 → (applyArm (armFieldsOf b) s).entry m =
        if ¬byteAt b 2 = 1 ∧
            clipOnPages (field b 3 2) (armEnd s (field b 3 2) (field b 14 4)) (s.entry m) = true
          then DirEntry.blank else s.entry m)
      ∧ (applyArm (armFieldsOf b) s).entry (field b 0 2) =
        armedEntry b .filling (if byteAt b 2 = 1 then s.store.currentPage else field b 3 2)
      ∧ applyArm (armFieldsOf b) s = s.setStore { s.store with
          directory := (applyArm (armFieldsOf b) s).store.directory
          armList := s.store.armList.filter fun a => a.clip != field b 0 2
          engine := some ⟨(armFieldsOf b).arm, 0, 0, none, none, [], none⟩ } := by
  obtain ⟨l, apply, mem⟩ := applyArm_eq b s
  obtain ⟨d, hd⟩ := emptyAll_store l s
  have now : (armFieldsOf b).now = true := by simp [armFieldsOf, hnow]
  have filled := (emptyAll_formed l hf).2
  have entries (m : Nat) := entry_setEntry (emptyAll l s) (field b 0 2) m (armFieldsOf b).entry filled
  have ringOf : (armFieldsOf b).entry.region = .ring ↔ byteAt b 2 = 1 := by
    rw [armFieldsOf_entry]
    simp [armedEntry]
  have room : (armFieldsOf b).entry.region = .ring →
      ((emptyAll l s).setEntry (field b 0 2) (armFieldsOf b).entry).store.ringFull = false := by
    intro ring
    have free : s.store.ringFull = false := ring_room hc hnow (ringOf.1 ring)
    rw [hd]
    exact free
  rw [now, if_pos rfl, startIngest_of_room (a := (armFieldsOf b).arm) (e := (armFieldsOf b).entry) none
    ((entries _).trans (if_pos rfl)) room] at apply
  have filling : { (armFieldsOf b).entry with
      state := .filling, firstPage := if (armFieldsOf b).entry.region = .ring then
        ((emptyAll l s).setEntry (field b 0 2) (armFieldsOf b).entry).store.currentPage
          else (armFieldsOf b).entry.firstPage } =
      armedEntry b .filling (if byteAt b 2 = 1 then s.store.currentPage else field b 3 2) := by
    simp only [ringOf]
    rw [armFieldsOf_entry, hd]
    by_cases ring : byteAt b 2 = 1 
    · simp only [ring, if_true, armedEntry]
      rfl
    · simp only [ring, if_false, armedEntry]
  rw [filling] at apply
  have find (m : Nat) : (applyArm (armFieldsOf b) s).entry m =
      (((emptyAll l s).setEntry (field b 0 2) (armFieldsOf b).entry).setEntry (field b 0 2)
        (armedEntry b .filling (if byteAt b 2 = 1 then s.store.currentPage
          else field b 3 2))).entry m := by rw [apply]; rfl
  refine ⟨fun m hm => ?_, ?_, ?_⟩
  · rw [find, entry_setEntry _ _ _ _ (setEntry_canonical _ _ _ filled), if_neg hm, entries,
      if_neg hm, emptyAll_entry l hf]
    simp only [mem hf m]
  · rw [find, entry_setEntry _ _ _ _ (setEntry_canonical _ _ _ filled), if_pos rfl]
  · rw [apply, hd]
    rfl

/-- Settles O52: the checks in their order, then the emptied entries and the new one. -/
theorem ingestArmFillsTheEntry : Obligations.IngestArmFillsTheEntry := by
  intro s src h b rest hready hcode hlen u n arm ring first last
  have run {r : Reply} {t : State} := answers_of_work (r := r) (t := t) (exec_ingestArm s) hready
    hcode hlen
  refine ⟨fun above => run (if_pos above), fun hn he => run ?_, fun hn he unknown => run ?_,
    fun x hn he hb hx => run ?_, fun hn he hb hf hc => ?_⟩
  · exact (if_neg (Nat.not_lt.2 hn)).trans (if_pos he)
  · refine (if_neg (Nat.not_lt.2 hn)).trans ((if_neg (not_not.2 he)).trans ?_)
    rw [armFields_eq, if_neg unknown]
    rfl
  · exact (ingestArm_checked (s := u) hn he hb).1 x.2 (congrArg (Option.map _) hx)
  · have pass : firstFlag (armChecks u b) = none := congrArg (Option.map _) hc
    refine ⟨applyArm (armFieldsOf b) u, run ((ingestArm_checked (s := u) hn he hb).2 pass), ?_⟩
    by_cases cue : byteAt b 18 = 1
    · obtain ⟨others, mine, store⟩ := applyArm_cue (s := u) (b := b) hf cue
      exact ⟨others, fun _ => ⟨mine, store⟩, fun now => by omega⟩
    · have now : byteAt b 18 = 0 := by
        have := hb.2.2.2.1
        omega
      obtain ⟨others, mine, store⟩ := applyArm_now (s := u) (b := b) hf pass now
      exact ⟨others, fun cue' => absurd cue' cue, fun _ => ⟨mine, store⟩⟩

end Sys2Proof.Machine
end

section
/-! PROOFS. BREAK_LOAD: the record its fields describe, and the two parts on a queue (R106 to R110). -/

namespace Sys2Proof.Machine

open Claim

variable {s : State} {src : Byte} {h : CmdHeader} {rest : List Command}

theorem exec_breakLoadFirstPart (s : State) : exec .breakLoadFirstPart s =
    runRow (fun c => hasCode 0x30 c && byteAt c.body 3 != 1) false breakLoadFirst s := rfl

theorem exec_breakLoadContinuation (s : State) : exec .breakLoadContinuation s =
    runRow isContinuation false
      (fun c s => if c.body.length = continuationLength c.body then loadContinuation c.body s
        else refuse .badLength s) s := rfl

/-! ### The fields of a part (R107, R199) -/

theorem byteAt_lt (b : List Byte) (off : Nat) : byteAt b off < 256 := by
  unfold byteAt
  exact BitVec.isLt _

theorem beNat_lt (l : List Byte) : beNat l < 256 ^ l.length := by
  induction l with
  | nil => exact Nat.one_pos
  | cons b l ih =>
    have small := b.isLt
    rw [beNat_cons, List.length_cons, Nat.pow_succ]
    have top : b.toNat * 256 ^ l.length ≤ 255 * 256 ^ l.length := Nat.mul_le_mul_right _ (by omega)
    omega

theorem field_lt (b : List Byte) (off n : Nat) : field b off n < 256 ^ n :=
  (beNat_lt _).trans_le (Nat.pow_le_pow_right (by decide) (List.length_take_le n _))

theorem classOf_eq (n : Nat) :
    classOf n = if n ≤ 1 then some (if n = 1 then .drop else .must) else none := by
  unfold classOf
  split <;> grind

theorem clampField_rate (b : List Byte) (off : Nat) :
    clampField 1 255 (byteAt b off) = (max (byteAt b off) 1, byteAt b off == 0) := by
  have small := byteAt_lt b off
  have put : clampNat 1 255 (byteAt b off) = max (byteAt b off) 1 := by unfold clampNat; omega
  have cut : (max (byteAt b off) 1 != byteAt b off) = (byteAt b off == 0) := by
    rw [Bool.eq_iff_iff, bne_iff_ne, beq_iff_eq]
    omega
  rw [clampField, put, cut]

theorem clampField_overlap (x : Nat) :
    clampField 0 480000 x = (min x 480000, decide (480000 < x)) := by
  have put : clampNat 0 480000 x = min x 480000 := by unfold clampNat; omega
  have cut : (min x 480000 != x) = decide (480000 < x) := by
    rw [Bool.eq_iff_iff, bne_iff_ne, decide_eq_true_iff]
    omega
  rw [clampField, put, cut]

theorem parseFade_eq (b : List Byte) (off : Nat) : parseFade b off =
    if byteAt b off ≤ 1 ∧ (byteAt b off = 1 → byteAt b (off + 2) ≤ 3) then
      some (if byteAt b off = 1 then some ⟨max (byteAt b (off + 1)) 1, byteAt b (off + 2)⟩ else none,
        byteAt b off == 1 && byteAt b (off + 1) == 0)
    else none := by
  unfold parseFade
  rw [flagOf_eq, clampField_rate]
  by_cases present : byteAt b off = 1
  · simp [present]
    grind
  · by_cases absent : byteAt b off ≤ 1
    · have no : (byteAt b off == 1) = false := beq_false_of_ne present
      simp [absent, present, no]
    · simp [absent]

theorem parseItem_eq (b : List Byte) : parseItem b =
    if itemAllowed b then some (itemOf b, itemClamped b) else none := by
  unfold parseItem
  rw [classOf_eq, flagOf_eq, parseFade_eq, parseFade_eq, clampCode_eq, clampField_overlap]
  by_cases all : itemAllowed b
  · obtain ⟨h0, h2, h3, h10, h13, h12, h15⟩ := id all
    have fadeIn : byteAt b 10 ≤ 1 ∧ (byteAt b 10 = 1 → byteAt b (10 + 2) ≤ 3) := ⟨h10, h12⟩
    have fadeOut : byteAt b 13 ≤ 1 ∧ (byteAt b 13 = 1 → byteAt b (13 + 2) ≤ 3) := ⟨h13, h15⟩
    rw [if_pos all, if_pos h2, if_pos h3, if_pos fadeIn, if_pos fadeOut]
    exact if_neg (by omega)
  · rw [if_neg all]
    by_cases h2 : byteAt b 2 ≤ 1
    · by_cases h3 : byteAt b 3 ≤ 1
      · by_cases h10 : byteAt b 10 ≤ 1 ∧ (byteAt b 10 = 1 → byteAt b 12 ≤ 3)
        · by_cases h13 : byteAt b 13 ≤ 1 ∧ (byteAt b 13 = 1 → byteAt b 15 ≤ 3)
          · rw [if_pos h2, if_pos h3, if_pos h10, if_pos h13]
            obtain ⟨h10, h12⟩ := h10
            exact if_pos (Nat.lt_of_not_le fun h0 => all ⟨h0, h2, h3, h10, h13.1, h12, h13.2⟩)
          · rw [if_pos h2, if_pos h3, if_pos h10, if_neg h13]
        · rw [if_pos h2, if_pos h3, if_neg h10]
      · rw [if_pos h2, if_neg h3]
    · rw [if_neg h2]

theorem itemAt_succ (b : List Byte) (off k : Nat) : itemAt b off (k + 1) = itemAt b (off + 16) k := by
  rw [itemAt, itemAt, Nat.mul_succ, ← Nat.add_assoc, Nat.add_right_comm]

theorem parseItems_eq (n : Nat) (b : List Byte) (off : Nat) : parseItems n (b.drop off) =
    if ∀ k, k < n → itemAllowed (itemAt b off k) then
      some (itemsOf b off n, (List.range n).any fun k => itemClamped (itemAt b off k))
    else none := by
  induction n generalizing off with
  | zero => rfl
  | succ n ih =>
    have split : (∀ k, k < n + 1 → itemAllowed (itemAt b off k)) ↔
        itemAllowed (itemAt b off 0) ∧ ∀ k, k < n → itemAllowed (itemAt b (off + 16) k) := by
      simp only [← itemAt_succ]
      constructor
      · exact fun all => ⟨all 0 (by omega), fun k hk => all (k + 1) (by omega)⟩
      · rintro ⟨first, others⟩ (_ | k) hk
        · exact first
        · exact others k (by omega)
    have first : (b.drop off).take 16 = itemAt b off 0 := rfl
    rw [parseItems, first, List.drop_drop, ih, parseItem_eq]
    by_cases h0 : itemAllowed (itemAt b off 0)
    · by_cases hk : ∀ k, k < n → itemAllowed (itemAt b (off + 16) k)
      · rw [if_pos h0, if_pos hk, if_pos (split.2 ⟨h0, hk⟩)]
        simp only [itemsOf, List.range_succ_eq_map, List.map_cons, List.map_map, List.any_cons,
          List.any_map, Function.comp_def, itemAt_succ]
      · rw [if_pos h0, if_neg hk, if_neg fun all => hk (split.1 all).2]
    · rw [if_neg h0, if_neg fun all => h0 (split.1 all).1]

theorem parsePart_eq (b : List Byte) (countAt : Nat) : parsePart b countAt =
    if byteAt b 4 ≤ 1 ∧ byteAt b countAt ≤ 24
        ∧ ∀ k, k < byteAt b countAt → itemAllowed (itemAt b (countAt + 1) k) then
      some ⟨byteAt b 4 == 1, itemsOf b (countAt + 1) (byteAt b countAt),
        (List.range (byteAt b countAt)).any fun k => itemClamped (itemAt b (countAt + 1) k)⟩
    else none := by
  have cap : Config.breakItems = 24 := rfl
  unfold parsePart
  dsimp only
  rw [flagOf_eq, parseItems_eq]
  by_cases h4 : byteAt b 4 ≤ 1
  · by_cases hk : ∀ k, k < byteAt b countAt → itemAllowed (itemAt b (countAt + 1) k)
    · simp only [h4, if_pos hk, cap, if_true, true_and]
      by_cases h24 : byteAt b countAt ≤ 24
      · rw [if_pos h24, if_pos ⟨h24, hk⟩]
      · simp only [h24, if_false, false_and]
    · simp only [h4, hk, if_true, and_false, if_false]
  · simp only [h4, if_false, false_and]

/-! ### A first part (R106) -/

theorem parseTrigger_eq (kind value : Nat) : parseTrigger kind value =
    if kind ≤ 2 ∧ (kind = 0 → 1 ≤ value ∧ value ≤ 65535) then
      some (if kind = 0 then .cue value else if kind = 1 then .time (BitVec.ofNat 32 value)
        else .manual)
    else none := by
  unfold parseTrigger
  split <;> grind

theorem parseFill_eq (b : List Byte) : parseFill b =
    if byteAt b 16 ≤ 1 ∧ (byteAt b 16 = 1 → field b 17 2 ≤ 1023) then
      some (if byteAt b 16 = 1 then some (field b 17 2) else none)
    else none := by
  unfold parseFill
  rw [flagOf_eq]
  by_cases present : byteAt b 16 = 1
  · simp [present]
  · have no : (byteAt b 16 == 1) = false := beq_false_of_ne present
    by_cases absent : byteAt b 16 ≤ 1
    · simp [absent, present, no]
    · simp [absent]

theorem parseExpiry_eq (b : List Byte) : parseExpiry b =
    if byteAt b 19 ≤ 1 then some (if byteAt b 19 = 1 then some (BitVec.ofNat 32 (field b 20 4)) else none)
    else none := by
  unfold parseExpiry
  rw [flagOf_eq]
  by_cases known : byteAt b 19 ≤ 1
  · simp [known, acField]
  · simp [known]

theorem expiryAhead_eq (s : State) (b : List Byte) :
    expiryAhead s (if byteAt b 19 = 1 then some (BitVec.ofNat 32 (field b 20 4)) else none) = true ↔
      (byteAt b 19 = 1 → acBefore s.clock.ac (BitVec.ofNat 32 (field b 20 4)) = true) := by
  by_cases present : byteAt b 19 = 1 <;> simp [present, expiryAhead]

theorem breakNumber_allowed (b : List Byte) :
    breakNumberAllowed (field b 1 2) = true ↔ 1 ≤ field b 1 2 := by
  have small : field b 1 2 < 65536 := field_lt b 1 2
  simp only [breakNumberAllowed, Bool.and_eq_true, decide_eq_true_iff]
  omega

theorem itemsOf_length (b : List Byte) (off n : Nat) : (itemsOf b off n).length = n := by
  simp [itemsOf]

theorem part_some (b : List Byte) (off n : Nat) :
    ((byteAt b 4 == 1) = true ∨ itemsOf b off n ≠ []) ↔ (byteAt b 4 = 1 ∨ 1 ≤ n) := by
  rw [beq_iff_eq, ← List.length_pos_iff, itemsOf_length]
  exact Iff.rfl

/-- A value of a first part was put into its range. -/
def partClamped (b : List Byte) : Bool := decide (4095 < field b 14 2)
  || (List.range (byteAt b 24)).any fun k => itemClamped (itemAt b 25 k)

theorem parseFirst_allowed {b : List Byte} {c : Fin 4} (hc : byteAt b 0 = c.val)
    (all : firstPartAllowed b s.clock.ac) : parseFirst b s = some (c, recordOf b, partClamped b) := by
  obtain ⟨_, number, more, kind, key, window, fill, fillClip, expiry, ahead, count, some_, items⟩ := all
  have trigger := And.intro kind key
  have fills := And.intro fill fillClip
  have part := And.intro more (And.intro count items)
  unfold parseFirst
  rw [hc, channelOf_val, parseTrigger_eq, if_pos trigger, parseFill_eq, if_pos fills,
    parseExpiry_eq, if_pos expiry, parsePart_eq, if_pos part, clampCode_eq]
  refine (if_pos ⟨(breakNumber_allowed b).2 number, window, (part_some ..).2 some_,
    (expiryAhead_eq s b).2 ahead⟩).trans ?_
  simp only [recordOf, partClamped, beq_iff_eq]

theorem parseFirst_refused {b : List Byte} (bad : ¬firstPartAllowed b s.clock.ac) :
    parseFirst b s = none := by
  unfold parseFirst
  rw [parseTrigger_eq, parseFill_eq, parseExpiry_eq, parsePart_eq, clampCode_eq]
  by_cases channel : byteAt b 0 ≤ 3
  · by_cases trigger : byteAt b 5 ≤ 2 ∧ (byteAt b 5 = 0 → 1 ≤ field b 6 4 ∧ field b 6 4 ≤ 65535)
    · by_cases fill : byteAt b 16 ≤ 1 ∧ (byteAt b 16 = 1 → field b 17 2 ≤ 1023)
      · by_cases expiry : byteAt b 19 ≤ 1
        · by_cases part : byteAt b 4 ≤ 1 ∧ byteAt b 24 ≤ 24
              ∧ ∀ k, k < byteAt b 24 → itemAllowed (itemAt b 25 k)
          · rw [channelOf_of_lt (by omega), if_pos trigger, if_pos fill, if_pos expiry, if_pos part]
            refine if_neg fun ⟨number, window, some_, ahead⟩ => bad ?_
            obtain ⟨more, count, items⟩ := part
            exact ⟨channel, (breakNumber_allowed b).1 number, more, trigger.1, trigger.2, window,
              fill.1, fill.2, expiry, (expiryAhead_eq s b).1 ahead, count,
              (part_some ..).1 some_, items⟩
          · rw [channelOf_of_lt (by omega), if_pos trigger, if_pos fill, if_pos expiry, if_neg part]
        · rw [channelOf_of_lt (by omega), if_pos trigger, if_pos fill, if_neg expiry]
      · rw [channelOf_of_lt (by omega), if_pos trigger, if_neg fill]
    · rw [channelOf_of_lt (by omega), if_neg trigger]
  · rw [channelOf_of_le (by omega)]

/-! ### Holds, places and the pool -/

theorem takeHolds_store (l : List Nat) (s : State) :
    ∃ d, takeHolds l s = s.setStore { s.store with directory := d } := by
  induction l generalizing s with
  | nil => exact ⟨s.store.directory, rfl⟩
  | cons n l ih =>
    obtain ⟨d, hd⟩ := ih ((holdClip n s).getD s)
    refine ⟨d, hd.trans ?_⟩
    by_cases hr : (s.entry n).state = .ready
    · rw [holdClip_ready hr]
      rfl
    · rw [holdClip_notReady hr]
      rfl

/-- READY clips take one hold for each time they are named. -/
theorem takeHolds_entry {l : List Nat} (hf : s.formed) (hl : ∀ n ∈ l, (s.entry n).state = .ready)
    (m : Nat) : (takeHolds l s).entry m =
      { s.entry m with hold := (s.entry m).hold + l.count m } := by
  induction l generalizing s with
  | nil => rfl
  | cons n l ih =>
    have held := holdClip_ready (hl n List.mem_cons_self)
    have find (k : Nat) := entry_setEntry s n k { s.entry n with hold := (s.entry n).hold + 1 } hf.2
    have next : ((holdClip n s).getD s) =
        s.setEntry n { s.entry n with hold := (s.entry n).hold + 1 } := by rw [held]; rfl
    have more : ∀ k ∈ l, (((holdClip n s).getD s).entry k).state = .ready := by
      intro k hk
      rw [next, find]
      split
      · exact hl n List.mem_cons_self
      · exact hl k (List.mem_cons_of_mem n hk)
    have formed : ((holdClip n s).getD s).formed := by
      rw [next]
      exact ⟨hf.1, setEntry_canonical s n _ hf.2⟩
    rw [takeHolds, List.foldl_cons]
    refine (ih formed more).trans ?_
    rw [next, find, List.count_cons]
    by_cases hm : m = n
    · subst hm
      simp
      omega
    · simp [hm, Ne.symm hm]

/-- The items of a channel's break records. -/
def State.queued (s : State) (c : Fin 4) : Nat := ((s.ch c).queue.map fun r => r.items.length).sum

theorem poolFree_of_queued {c : Fin 4} {t : State} {k : Nat} (others : ∀ d, d ≠ c → t.ch d = s.ch d)
    (mine : t.queued c = s.queued c + k) : t.poolFree = s.poolFree - k := by
  have same (d : Fin 4) (hd : d ≠ c) : t.queued d = s.queued d := by
    rw [State.queued, others d hd, State.queued]
  have pool (u : State) : u.poolFree =
      Config.poolItems - (u.queued 0 + (u.queued 1 + (u.queued 2 + u.queued 3))) := rfl
  rw [pool, pool, Nat.sub_sub]
  congr 1
  obtain rfl | rfl | rfl | rfl : c = 0 ∨ c = 1 ∨ c = 2 ∨ c = 3 := by omega
  · have := same 1 (by decide); have := same 2 (by decide); have := same 3 (by decide)
    omega
  · have := same 0 (by decide); have := same 2 (by decide); have := same 3 (by decide)
    omega
  · have := same 0 (by decide); have := same 1 (by decide); have := same 3 (by decide)
    omega
  · have := same 0 (by decide); have := same 1 (by decide); have := same 2 (by decide)
    omega

theorem allReady_iff (l : List Nat) :
    s.allReady l = true ↔ ∀ n ∈ l, (s.entry n).state = .ready := by
  simp [State.allReady, State.isReady]

theorem allLong_iff (l : List Item) :
    s.allLong l = true ↔ ∀ i ∈ l, 2048 ≤ (s.entry i.clip).length := by
  simp [State.allLong, Config.itemFrames]

/-! ### The two parts -/

theorem firstCheck_passes {c : Fin 4} {r : BreakRecord} (new : s.record c r.number = none)
    (room : (s.ch c).queue.length < 8) (pool : r.items.length ≤ s.poolFree)
    (clips : ∀ n ∈ r.clips, (s.entry n).state = .ready)
    (long : ∀ i ∈ r.items, 2048 ≤ (s.entry i.clip).length) : firstCheck c r s = none := by
  have cap : Config.queueRecords = 8 := rfl
  simp only [firstCheck, new, Option.isSome_none, Bool.false_eq_true, if_false, cap,
    if_neg (Nat.not_le.2 room), if_neg (Nat.not_lt.2 pool), (allReady_iff _).2 clips,
    (allLong_iff _).2 long, Bool.not_true]

theorem addRecord_ch (c d : Fin 4) (r : BreakRecord) (s : State) : (addRecord c r s).ch d =
    if d = c then { s.ch c with queue := (s.ch c).queue ++ [r] } else s.ch d := by
  rw [addRecord, State.ch_setCh]
  simp only [takeHolds_ch]

/-- The reply of an accepted first part (R108). -/
theorem loadReply_addRecord {c : Fin 4} {r : BreakRecord} (clamped : Bool)
    (new : s.record c r.number = none) : loadReply c r.number clamped (addRecord c r s) =
      (.done clamped false (toBytes ((s.ch c).queue.length + 1) 1 ++ toBytes r.items.length 1
        ++ toBytes (s.poolFree - r.items.length) 2), addRecord c r s) := by
  have mine : (addRecord c r s).ch c = { s.ch c with queue := (s.ch c).queue ++ [r] } := by
    rw [addRecord_ch, if_pos rfl]
  have none_ : ∀ q ∈ (s.ch c).queue, (q.number == r.number) = false := by
    intro q hq
    simpa using List.find?_eq_none.1 new q hq
  have place : (addRecord c r s).place c r.number = (s.ch c).queue.length + 1 := by
    rw [State.place, mine]
    congr 1
    rw [List.findIdx_append, List.findIdx_eq_length.2 none_]
    simp
  have record : (addRecord c r s).record c r.number = some r := by
    rw [State.record, mine, List.find?_append]
    have nothing : (s.ch c).queue.find? (fun q => q.number == r.number) = none := new
    rw [nothing]
    simp
  have free : (addRecord c r s).poolFree = s.poolFree - r.items.length := by
    refine poolFree_of_queued (c := c) (fun d hd => ?_) ?_
    · rw [addRecord_ch, if_neg hd]
    · rw [State.queued, mine, State.queued]
      simp
  rw [loadReply, place, State.itemCount, record, free]
  rfl

theorem firstPart_buildsTheRecord : firstPartBuildsTheRecord := by
  intro s src h body rest hf hready hcode hkind hlen u r clamped
  have row : (hasCode 0x30 ⟨src, h, body⟩ && byteAt body 3 != 1) = true := by
    simp [hasCode, hcode, hkind]
  have work : breakLoadFirst ⟨src, h, body⟩ u = loadFirst body u :=
    (if_pos hkind).trans (if_pos hlen)
  have run {r : Reply} {t : State} (hl : loadFirst body u = (r, t)) :=
    answers_of_row (exec_breakLoadFirstPart s) hready row (work.trans hl)
  constructor
  · intro bad
    refine run ?_
    rw [loadFirst, parseFirst_refused (s := u) bad]
    rfl
  intro c hc all
  have parsed : parseFirst body u = some (c, r, clamped) := parseFirst_allowed (s := u) hc all
  refine ⟨fun f hcheck => run ?_, fun new room pool clips long => ⟨addRecord c r u, run ?_, ?_⟩⟩
  · have hcheck : firstCheck c r u = some f := hcheck
    simp only [loadFirst, parsed, hcheck]
    rfl
  · have pass : firstCheck c r u = none := firstCheck_passes (s := u) new room pool clips long
    simp only [loadFirst, parsed, pass]
    exact loadReply_addRecord (s := u) clamped new
  · obtain ⟨d, held⟩ := takeHolds_store r.clips u
    refine ⟨(addRecord_ch c c r u).trans (if_pos rfl), fun d hd => (addRecord_ch c d r u).trans (if_neg hd),
      fun n => takeHolds_entry (s := u) hf clips n, ?_⟩
    rw [addRecord, held]
    exact ⟨rfl, rfl, rfl, rfl, rfl, rfl⟩

/-- A change of the records with a number, as a map over the queue. -/
def changeRecord (n : Nat) (f : BreakRecord → BreakRecord) (q : BreakRecord) : BreakRecord :=
  if q.number = n then f q else q

theorem modRecord_ch (c d : Fin 4) (n : Nat) (f : BreakRecord → BreakRecord) (s : State) :
    (modRecord c n f s).ch d = if d = c then
      { s.ch c with queue := (s.ch c).queue.map (changeRecord n f) } else s.ch d := by
  rw [modRecord, State.ch_setCh]
  rfl

theorem changeRecord_number {n : Nat} {f : BreakRecord → BreakRecord}
    (hf : ∀ q, (f q).number = q.number) (q : BreakRecord) : (changeRecord n f q).number = q.number := by
  unfold changeRecord
  split
  · exact hf q
  · rfl

theorem modRecord_record {c : Fin 4} {n : Nat} {f : BreakRecord → BreakRecord}
    (hf : ∀ q, (f q).number = q.number) (m : Nat) (s : State) :
    (modRecord c n f s).record c m = (s.record c m).map (changeRecord n f) := by
  rw [State.record, modRecord_ch, if_pos rfl, List.find?_map, State.record]
  simp only [Function.comp_def, changeRecord_number hf]

theorem modRecord_place {c : Fin 4} {n : Nat} {f : BreakRecord → BreakRecord}
    (hf : ∀ q, (f q).number = q.number) (m : Nat) (s : State) :
    (modRecord c n f s).place c m = s.place c m := by
  rw [State.place, modRecord_ch, if_pos rfl, List.findIdx_map, State.place]
  simp only [Function.comp_def, changeRecord_number hf]

/-- With the numbers distinct one record changes, and the items grow by its growth. -/
theorem items_changeRecord {n k : Nat} {f : BreakRecord → BreakRecord} {l : List BreakRecord}
    {r : BreakRecord} (hd : (l.map fun q => q.number).Nodup)
    (hr : l.find? (fun q => q.number == n) = some r)
    (hk : (f r).items.length = r.items.length + k) :
    ((l.map (changeRecord n f)).map fun q => q.items.length).sum =
      (l.map fun q => q.items.length).sum + k := by
  induction l with
  | nil => cases hr
  | cons q l ih =>
    obtain ⟨fresh, hd⟩ := List.nodup_cons.1 hd
    by_cases hq : q.number = n
    · rw [List.find?_cons_of_pos (by simpa using hq)] at hr
      cases hr
      have others : l.map (changeRecord n f) = l.map id := List.map_congr_left fun p hp => by
        refine if_neg fun hpn => fresh ?_
        exact List.mem_map.2 ⟨p, hp, hpn.trans hq.symm⟩
      rw [List.map_cons, others, List.map_id, changeRecord, if_pos hq]
      simp only [List.map_cons, List.sum_cons, hk]
      omega
    · rw [List.find?_cons_of_neg (by simpa using hq)] at hr
      rw [List.map_cons, changeRecord, if_neg hq]
      simp only [List.map_cons, List.sum_cons, ih hd hr]
      omega

/-- What a continuation does to its record (R109). -/
def joinItems (items : List Item) (more : Bool) (r : BreakRecord) : BreakRecord :=
  { r with items := r.items ++ items, state := if more then r.state else .pending }

theorem joinItems_number (items : List Item) (more : Bool) (r : BreakRecord) :
    (joinItems items more r).number = r.number := rfl

theorem appendItems_eq (c : Fin 4) (n : Nat) (p : LoadPart) (s : State) : appendItems c n p s =
    modRecord c n (joinItems p.items p.more) (takeHolds (p.items.map fun i => i.clip) s) := rfl

theorem appendItems_record {c : Fin 4} (n m : Nat) (p : LoadPart) (s : State) :
    (appendItems c n p s).record c m =
      (s.record c m).map (changeRecord n (joinItems p.items p.more)) := by
  rw [appendItems_eq, modRecord_record (joinItems_number _ _), State.record, takeHolds_ch, State.record]

theorem loadReply_appendItems {c : Fin 4} {n : Nat} {r : BreakRecord} {p : LoadPart}
    (hr : s.record c n = some r) (hn : r.number = n)
    (hd : ((s.ch c).queue.map fun q => q.number).Nodup) :
    loadReply c n p.clamped (appendItems c n p s) = (.done p.clamped false
      (toBytes ((s.ch c).queue.findIdx (fun q => q.number == n) + 1) 1
        ++ toBytes (r.items.length + p.items.length) 1 ++ toBytes (s.poolFree - p.items.length) 2),
      appendItems c n p s) := by
  have place : (appendItems c n p s).place c n =
      (s.ch c).queue.findIdx (fun q => q.number == n) + 1 := by
    rw [appendItems_eq, modRecord_place (joinItems_number _ _), State.place, takeHolds_ch]
  have free : (appendItems c n p s).poolFree = s.poolFree - p.items.length := by
    refine poolFree_of_queued (c := c) (fun d hd => ?_) ?_
    · rw [appendItems_eq, modRecord_ch, if_neg hd, takeHolds_ch]
    · rw [State.queued, appendItems_eq, modRecord_ch, if_pos rfl, takeHolds_ch, State.queued]
      exact items_changeRecord hd hr (by simp [joinItems])
  rw [loadReply, place, State.itemCount, appendItems_record, hr, free]
  simp [changeRecord, hn, joinItems]

/-- What a continuation in range answers, by its checks (R109). -/
theorem loadContinuation_other {c : Fin 4} {b : List Byte} {r : BreakRecord}
    (hc : channelOf (byteAt b 0) = some c) (hn : breakNumberAllowed (field b 1 2) = true)
    (hr : s.record c (field b 1 2) = some r) (hl : r.state ≠ .loading) :
    loadContinuation b s = refuse .state s := by
  simp only [loadContinuation, hc, hn, hr, if_pos hl, Bool.true_eq_false, if_false]

theorem loadContinuation_refused {c : Fin 4} {b : List Byte} {r : BreakRecord} {f : ErrFlag}
    (hc : channelOf (byteAt b 0) = some c) (hn : breakNumberAllowed (field b 1 2) = true)
    (hr : s.record c (field b 1 2) = some r) (hl : r.state = .loading)
    (hf : continuationCheck r b s = .error f) : loadContinuation b s = refuse f s := by
  simp only [loadContinuation, hc, hn, hr, hl, hf, ne_eq, not_true_eq_false, Bool.true_eq_false,
    if_false]

theorem loadContinuation_accepted {c : Fin 4} {b : List Byte} {r : BreakRecord} {p : LoadPart}
    (hc : channelOf (byteAt b 0) = some c) (hn : breakNumberAllowed (field b 1 2) = true)
    (hr : s.record c (field b 1 2) = some r) (hl : r.state = .loading)
    (hp : continuationCheck r b s = .ok p) : loadContinuation b s =
      loadReply c (field b 1 2) p.clamped (appendItems c (field b 1 2) p s) := by
  simp only [loadContinuation, hc, hn, hr, hl, hp, ne_eq, not_true_eq_false, Bool.true_eq_false,
    if_false]

theorem continuationCheck_passes {r : BreakRecord} {b : List Byte} {p : LoadPart}
    (hp : parsePart b 5 = some p) (total : r.items.length + p.items.length ≤ 24)
    (some_ : p.more = true ∨ 1 ≤ r.items.length + p.items.length)
    (pool : p.items.length ≤ s.poolFree) (clips : ∀ i ∈ p.items, (s.entry i.clip).state = .ready)
    (long : ∀ i ∈ p.items, 2048 ≤ (s.entry i.clip).length) : continuationCheck r b s = .ok p := by
  have cap : Config.breakItems = 24 := rfl
  have kept : ¬(r.items.length + p.items.length > 24
      ∨ p.more = false ∧ r.items.length + p.items.length = 0) := by
    cases hm : p.more
    all_goals simp only [hm] at some_ ⊢; grind
  have ready_ : s.allReady (p.items.map fun i => i.clip) = true :=
    (allReady_iff _).2 (List.forall_mem_map.2 clips)
  simp only [continuationCheck, hp, cap, if_neg kept, if_neg (Nat.not_lt.2 pool), ready_,
    (allLong_iff _).2 long, Bool.not_true, Bool.false_eq_true, if_false]

theorem continuation_addsItems : continuationAddsItems := by
  intro s src h body rest c hf hready hcode hkind hlen hc hnum u number count items clamped
  have row : isContinuation ⟨src, h, body⟩ = true := by
    simp [isContinuation, hasCode, hcode, hkind]
  have allowed : breakNumberAllowed number = true := (breakNumber_allowed body).2 hnum
  have run {q : Reply} {t : State} (hl : loadContinuation body u = (q, t)) :=
    answers_of_row (exec_breakLoadContinuation s) hready row ((if_pos hlen).trans hl)
  have named {r : BreakRecord} (hr : s.record c number = some r) :
      u.record c (field body 1 2) = some r := hr
  have channel : channelOf (byteAt body 0) = some c := by rw [hc, channelOf_val]
  have count_ : items.length = count := itemsOf_length ..
  have found {m : Nat} {q : BreakRecord} (hq : s.record c m = some q) : q.number = m := by
    simpa using List.find?_some hq
  refine ⟨fun none_ => run ?_, fun r hr => ⟨fun other => run ?_, fun loading bad => run ?_,
    fun f loading hcheck => run ?_, fun loading more items_ total some_ pool clips long hd =>
      ⟨appendItems c number ⟨byteAt body 4 == 1, items, clamped⟩ u, run ?_, ?_, ?_, ?_⟩⟩⟩
  · have none_ : u.record c (field body 1 2) = none := none_
    have allowed : breakNumberAllowed (field body 1 2) = true := allowed
    simp only [loadContinuation, channel, allowed, none_, Bool.true_eq_false, if_false]
    rfl
  · exact loadContinuation_other channel allowed (named hr) other
  · have parse : parsePart body 5 = none := by
      rw [parsePart_eq]
      refine if_neg fun ⟨more, room, all⟩ => ?_
      obtain h4 | h24 | ⟨k, hk, no⟩ := bad
      · omega
      · exact absurd room (Nat.not_le.2 h24)
      · exact no (all k hk)
    refine loadContinuation_refused channel allowed (named hr) loading ?_
    simp only [continuationCheck, parse]
  · exact loadContinuation_refused channel allowed (named hr) loading hcheck
  · have parse : parsePart body 5 = some ⟨byteAt body 4 == 1, items, clamped⟩ := by
      rw [parsePart_eq]
      exact if_pos ⟨more, by omega, items_⟩
    have pass : continuationCheck r body u = .ok ⟨byteAt body 4 == 1, items, clamped⟩ :=
      continuationCheck_passes (s := u) parse (by rw [count_]; exact total)
        (by rw [count_, beq_iff_eq]; exact some_) (by rw [count_]; exact pool) clips long
    refine (loadContinuation_accepted channel allowed (named hr) loading pass).trans ?_
    rw [← count_]
    exact loadReply_appendItems (s := u) hr (found hr) hd
  · have kept : u.record c number = some r := hr
    rw [appendItems_record, kept, Option.map_some, changeRecord, if_pos (found hr), joinItems, loading]
    simp only [beq_iff_eq]
  · intro m hm
    rw [appendItems_record]
    change Option.map _ (s.record c m) = s.record c m
    cases hq : s.record c m with
    | none => rfl
    | some q =>
      have other : q.number ≠ number := (found hq).trans_ne hm
      rw [Option.map_some, changeRecord, if_neg other]
  · obtain ⟨d, held⟩ := takeHolds_store (items.map fun i => i.clip) u
    have entries := takeHolds_entry (s := u) hf (List.forall_mem_map.2 clips)
    refine ⟨fun d hd => ?_, fun n => ?_, ?_⟩
    · rw [appendItems_eq, modRecord_ch, if_neg hd, takeHolds_ch]
      rfl
    · rw [appendItems_eq, modRecord_entry]
      exact entries n
    · rw [appendItems_eq, held]
      exact ⟨rfl, rfl, rfl, rfl⟩

/-- Settles O54, part by part. -/
theorem breakLoadBuildsTheRecord : Obligations.BreakLoadBuildsTheRecord :=
  ⟨firstPart_buildsTheRecord, continuation_addsItems⟩

end Sys2Proof.Machine
end

section
/-! PROOFS. What the shared operations on records, holds and voices leave: the as-run queue, the
directory, the voices and the queues after them. -/

namespace Sys2Proof.Machine

open Claim

variable {s : State}

/-! ### The as-run queue -/

theorem asrunWrite_room {r : AsRunRecord} (h : s.asrun.records.length < 256) :
    (asrunWrite r s).asrun = ⟨s.asrun.records ++ [r], s.asrun.lost⟩ := by
  have cap : Config.asrunRecords = 256 := rfl
  unfold asrunWrite
  rw [if_pos (by rw [cap]; exact h)]
  dsimp only
  split
  · rfl
  · split
    · rw [raiseAlert_asrun]
      rfl
    · rfl

theorem asrunWriteAll_room {l : List AsRunRecord} (h : s.asrun.records.length + l.length ≤ 256) :
    (asrunWriteAll l s).asrun = ⟨s.asrun.records ++ l, s.asrun.lost⟩ := by
  induction l generalizing s with
  | nil => simp [asrunWriteAll]
  | cons r l ih =>
    rw [List.length_cons] at h
    have first := asrunWrite_room (r := r) (s := s) (by omega)
    rw [asrunWriteAll, List.foldl_cons]
    refine (ih ?_).trans ?_
    · rw [first]
      simp only [List.length_append, List.length_cons, List.length_nil]
      omega
    · rw [first, List.append_assoc]
      rfl

/-! ### Holds -/

/-- An entry with k holds given back. -/
def DirEntry.less (e : DirEntry) (k : Nat) : DirEntry := { e with hold := e.hold - k }

theorem DirEntry.less_zero (e : DirEntry) : e.less 0 = e := rfl

theorem DirEntry.less_less (e : DirEntry) (j k : Nat) : (e.less j).less k = e.less (j + k) := by
  simp only [DirEntry.less, Nat.sub_sub]

/-- Every clip has the entry it had, with the holds given back that f says (R39). -/
def State.Returned (s : State) (f : Nat → Nat) (t : State) : Prop :=
  t.formed ∧ ∀ n, t.entry n = (s.entry n).less (f n)

theorem State.returned_none (hf : s.formed) : s.Returned (fun _ => 0) s := ⟨hf, fun _ => rfl⟩

theorem State.Returned.trans {f g : Nat → Nat} {t u : State} (h : s.Returned f t)
    (h' : t.Returned g u) : s.Returned (fun n => f n + g n) u := by
  refine ⟨h'.1, fun n => ?_⟩
  rw [h'.2 n, h.2 n, DirEntry.less_less]

/-- An operation that leaves memory and directory gives nothing back. -/
theorem State.Returned.of_eq {f : Nat → Nat} {t u : State} (h : s.Returned f t)
    (hm : u.memory = t.memory) (hs : u.store = t.store) : s.Returned f u := by
  refine ⟨?_, fun n => ?_⟩
  · rw [State.formed, hm, hs]
    exact h.1
  · rw [entry_of_store hs, h.2 n]

theorem releaseHold_returned (hf : s.formed) (n : Nat) :
    s.Returned (fun m => if n = m then 1 else 0) (releaseHold n s) := by
  refine ⟨⟨hf.1, setEntry_canonical s n _ hf.2⟩, fun m => ?_⟩
  refine (entry_setEntry s n m _ hf.2).trans ?_
  by_cases h : m = n
  · subst h
    simp [DirEntry.less]
  · simp [h, Ne.symm h, DirEntry.less_zero]

theorem releaseHolds_store (l : List Nat) (s : State) :
    ∃ d, releaseHolds l s = s.setStore { s.store with directory := d } := by
  induction l generalizing s with
  | nil => exact ⟨s.store.directory, rfl⟩
  | cons n l ih =>
    obtain ⟨d, hd⟩ := ih (releaseHold n s)
    exact ⟨d, hd⟩

theorem releaseHolds_voice (l : List Nat) (s : State) (v : Fin 16) :
    (releaseHolds l s).voice v = s.voice v := by
  obtain ⟨d, hd⟩ := releaseHolds_store l s
  rw [hd]
  rfl

theorem releaseHolds_events (l : List Nat) (s : State) :
    (releaseHolds l s).events = s.events := by
  obtain ⟨d, hd⟩ := releaseHolds_store l s
  rw [hd]
  rfl

theorem releaseHolds_returned (hf : s.formed) (l : List Nat) :
    s.Returned (fun m => l.count m) (releaseHolds l s) := by
  induction l generalizing s with
  | nil => exact State.returned_none hf
  | cons n l ih =>
    have first := releaseHold_returned hf n
    have both := first.trans (ih first.1)
    refine ⟨both.1, fun m => (both.2 m).trans ?_⟩
    simp only [List.count_cons, beq_iff_eq, Nat.add_comm]

/-! ### Voices given back (R46) -/

/-- The hold a voice in use has on a clip. -/
def State.voiceHold (s : State) (v : Fin 16) (n : Nat) : Nat :=
  if (s.voice v).state ≠ .free ∧ (s.voice v).clip = some n then 1 else 0

theorem releaseVoice_free {v : Fin 16} (h : (s.voice v).state = .free) : releaseVoice v s = s :=
  if_pos h

/-- A voice in use is FREE, its events are gone, and its clip has a hold less. -/
theorem releaseVoice_used {v : Fin 16} (h : (s.voice v).state ≠ .free) : releaseVoice v s =
    (releaseHolds (s.voice v).clip.toList
      (s.setEvents (s.events.filter fun e => e.voice != v))).setVoice v .freed := by
  unfold releaseVoice
  rw [if_neg h]
  dsimp only
  rw [State.setEvents_voice]
  cases (s.voice v).clip <;> rfl

theorem releaseVoice_voice (v w : Fin 16) (s : State) : (releaseVoice v s).voice w =
    if w = v ∧ (s.voice v).state ≠ .free then Voice.freed else s.voice w := by
  by_cases h : (s.voice v).state = .free
  · rw [releaseVoice_free h, if_neg fun both => both.2 h]
  · rw [releaseVoice_used h, State.voice_setVoice]
    simp only [h, ne_eq, not_false_eq_true, and_true, releaseHolds_voice, State.setEvents_voice]

theorem releaseVoice_returned (hf : s.formed) (v : Fin 16) :
    s.Returned (s.voiceHold v) (releaseVoice v s) := by
  by_cases h : (s.voice v).state = .free
  · rw [releaseVoice_free h]
    refine ⟨hf, fun n => ?_⟩
    rw [State.voiceHold, if_neg fun both => both.1 h, DirEntry.less_zero]
  · have returned := releaseHolds_returned
      (s := s.setEvents (s.events.filter fun e => e.voice != v)) hf (s.voice v).clip.toList
    rw [releaseVoice_used h]
    refine ⟨returned.1, fun n => ?_⟩
    have count : (s.voice v).clip.toList.count n = s.voiceHold v n := by
      rw [State.voiceHold]
      cases (s.voice v).clip <;> simp [h, List.count_cons]
    exact (returned.2 n).trans (congrArg (s.entry n).less count)

theorem releaseVoices_cons (v : Fin 16) (l : List (Fin 16)) (s : State) :
    releaseVoices (v :: l) s = releaseVoices l (releaseVoice v s) := rfl

theorem releaseVoices_voice (l : List (Fin 16)) (w : Fin 16) (s : State) :
    (releaseVoices l s).voice w =
      if w ∈ l ∧ (s.voice w).state ≠ .free then Voice.freed else s.voice w := by
  induction l generalizing s with
  | nil => simp [releaseVoices]
  | cons v l ih =>
    rw [releaseVoices_cons, ih, releaseVoice_voice]
    have freed : Voice.freed.state = .free := rfl
    simp only [List.mem_cons]
    grind

/-- The holds of the voices of a list. -/
def State.voiceHolds (s : State) (l : List (Fin 16)) (n : Nat) : Nat :=
  (l.map fun v => s.voiceHold v n).sum

theorem releaseVoices_returned (hf : s.formed) {l : List (Fin 16)} (hl : l.Nodup) :
    s.Returned (s.voiceHolds l) (releaseVoices l s) := by
  induction l generalizing s with
  | nil => exact State.returned_none hf
  | cons v l ih =>
    obtain ⟨fresh, hl⟩ := List.nodup_cons.1 hl
    have first := releaseVoice_returned hf v
    have both := first.trans (ih first.1 hl)
    have same : (releaseVoice v s).voiceHolds l = s.voiceHolds l := by
      funext n
      simp only [State.voiceHolds]
      congr 1
      refine List.map_congr_left fun w hw => ?_
      have hne : w ≠ v := fun heq => fresh (heq ▸ hw)
      have mine : (releaseVoice v s).voice w = s.voice w := by
        rw [releaseVoice_voice, if_neg fun both => hne both.1]
      rw [State.voiceHold, mine, State.voiceHold]
    rw [same] at both
    exact both

/-! ### Records that leave their queue (R110, R112) -/

theorem removeRecord_found {c : Fin 4} {n : Nat} {r : BreakRecord} (hr : s.record c n = some r) :
    removeRecord c n s = (releaseHolds r.clips s).setCh c { s.ch c with
      queue := (s.ch c).queue.filter fun q => q.number != n } := by
  simp only [removeRecord, hr, releaseHolds_ch]

theorem removeRecord_ch {c : Fin 4} {n : Nat} {r : BreakRecord} (hr : s.record c n = some r)
    (d : Fin 4) : (removeRecord c n s).ch d = if d = c then { s.ch c with
      queue := (s.ch c).queue.filter fun q => q.number != n } else s.ch d := by
  rw [removeRecord_found hr, State.ch_setCh, releaseHolds_ch]

theorem removeRecord_returned {c : Fin 4} {n : Nat} {r : BreakRecord} (hf : s.formed)
    (hr : s.record c n = some r) : s.Returned (fun m => r.clips.count m) (removeRecord c n s) := by
  rw [removeRecord_found hr]
  exact (releaseHolds_returned hf r.clips).of_eq rfl rfl

theorem removeRecord_voice (c : Fin 4) (n : Nat) (s : State) (v : Fin 16) :
    (removeRecord c n s).voice v = s.voice v := by
  unfold removeRecord
  cases s.record c n with
  | none => rfl
  | some r => exact releaseHolds_voice r.clips s v

/-! ### The break in flight -/

/-- Record r is the break in flight of channel c, and the first with its number. -/
structure State.Flying (s : State) (c : Fin 4) (r : BreakRecord) : Prop where
  flight : s.flight c = some r
  record : s.record c r.number = some r

theorem find_changeRecord {l : List BreakRecord} {n : Nat} {r : BreakRecord}
    {f : BreakRecord → BreakRecord} (flight : l.find? (fun q => q.state.inFlight) = some r)
    (record : l.find? (fun q => q.number == n) = some r) (still : (f r).state.inFlight = true) :
    (l.map (changeRecord n f)).find? (fun q => q.state.inFlight) = some (f r) := by
  induction l with
  | nil => cases flight
  | cons q l ih =>
    by_cases hq : q.number = n
    · rw [List.find?_cons_of_pos (by simpa using hq)] at record
      cases record
      rw [List.map_cons, changeRecord, if_pos hq, List.find?_cons_of_pos (by exact still)]
    · rw [List.find?_cons_of_neg (by simpa using hq)] at record
      have other : q.state.inFlight = false := by
        by_contra on
        rw [List.find?_cons_of_pos (by simpa using on)] at flight
        cases flight
        exact hq (by simpa using List.find?_some record)
      rw [List.find?_cons_of_neg (by simpa using other)] at flight
      rw [List.map_cons, changeRecord, if_neg hq, List.find?_cons_of_neg (by simpa using other),
        ih flight record]

/-- A change of the break in flight that keeps its number and keeps it in flight. -/
theorem State.Flying.modRecord {c : Fin 4} {r : BreakRecord} {f : BreakRecord → BreakRecord}
    (h : s.Flying c r) (number : ∀ q, (f q).number = q.number)
    (still : (f r).state.inFlight = true) : (modRecord c r.number f s).Flying c (f r) where
  flight := by
    rw [State.flight, modRecord_ch, if_pos rfl]
    exact find_changeRecord h.flight h.record still
  record := by
    rw [number, modRecord_record number, h.record, Option.map_some, changeRecord, if_pos rfl]

theorem State.Flying.of_ch {c : Fin 4} {r : BreakRecord} {t : State} (h : s.Flying c r)
    (hq : (t.ch c).queue = (s.ch c).queue) : t.Flying c r where
  flight := by rw [State.flight, hq, ← State.flight, h.flight]
  record := by rw [State.record, hq, ← State.record, h.record]

theorem removeRecord_asrun (c : Fin 4) (n : Nat) (s : State) :
    (removeRecord c n s).asrun = s.asrun := by
  unfold removeRecord
  cases s.record c n with
  | none => rfl
  | some r => exact releaseHolds_asrun r.clips s

end Sys2Proof.Machine
end

section
/-! PROOFS. BREAK_CANCEL and BREAK_ABORT: a break that leaves its queue, is withdrawn, or joins at once. -/

namespace Sys2Proof.Machine

open Claim

variable {s : State} {src : Byte} {h : CmdHeader} {rest : List Command}

/-! ### What voices in an egress frame leave unchanged -/

/-- Everything beside the voices, their events and the frame being formed. -/
def State.besidePlay (s : State) :=
  ((s.rx, s.lane, s.tx, s.clock, s.cues, s.memory, s.store, s.reserve),
    (s.chans, s.gpi, s.gpo, s.asrun, s.cmd, s.alert, s.pending))

theorem setVoice_besidePlay (v : Fin 16) (x : Voice) (s : State) :
    (s.setVoice v x).besidePlay = s.besidePlay := rfl

theorem setForming_besidePlay (x : Forming) (s : State) :
    (s.setForming x).besidePlay = s.besidePlay := rfl

theorem raiseEvent_besidePlay (k : EventKind) (v : Fin 16) (a : AC) (s : State) :
    (raiseEvent k v a s).besidePlay = s.besidePlay := rfl

theorem stopVoice_besidePlay (k : EventKind) (v : Fin 16) (a : AC) (s : State) :
    (stopVoice k v a s).besidePlay = s.besidePlay := rfl

theorem startVoice_besidePlay (v : Fin 16) (s : State) :
    (startVoice v s).besidePlay = s.besidePlay := rfl

theorem playVoice_besidePlay (v : Fin 16) (s : State) :
    (playVoice v s).besidePlay = s.besidePlay := by
  unfold playVoice
  dsimp only
  split
  · rfl
  · split <;> rfl

theorem start_besidePlay (v : Fin 16) (s : State) :
    (if s.startDue v then startVoice v s else s).besidePlay = s.besidePlay := by
  split <;> rfl

theorem play_besidePlay (v : Fin 16) (s : State) :
    (if (s.voice v).state = .playing then playVoice v s else s).besidePlay = s.besidePlay := by
  split
  · exact playVoice_besidePlay v s
  · rfl

theorem handleVoice_besidePlay (v : Fin 16) (s : State) :
    (handleVoice v s).besidePlay = s.besidePlay :=
  (play_besidePlay v _).trans (start_besidePlay v s)

theorem handleThrough_besidePlay (last : Nat) (s : State) :
    (handleThrough last s).besidePlay = s.besidePlay :=
  foldl_keeps State.besidePlay _ (fun t v => by
    dsimp only
    split
    · rw [setForming_besidePlay, handleVoice_besidePlay]
    · rfl) _ s

theorem startThrough_besidePlay (v : Fin 16) (s : State) :
    (startThrough v s).besidePlay = s.besidePlay := by
  unfold startThrough
  cases v.val with
  | zero => exact start_besidePlay v s
  | succ n => exact (start_besidePlay v _).trans (handleThrough_besidePlay n s)

theorem fadeToZero_besidePlay (v : Fin 16) (j : Nat) (s : State) :
    (fadeToZero v j s).2.besidePlay = s.besidePlay := by
  unfold fadeToZero
  dsimp only
  split
  · rfl
  · split <;> rfl

theorem cancelVoice_besidePlay (v : Fin 16) (s : State) :
    (cancelVoice v s).2.besidePlay = s.besidePlay := by
  unfold cancelVoice
  dsimp only
  split
  · rfl
  · exact fadeToZero_besidePlay v 0 s
  · rfl
  · rfl

/-! ### A break that joins -/

/-- In t the break r of s on channel c is JOINING at x with a cause, its gain on its way to unity. -/
structure State.Joining (s : State) (c : Fin 4) (r : BreakRecord) (x : AC) (cause : Cause)
    (t : State) : Prop where
  state : (t.ch c).state = .joining
  gain : (t.ch c).gain = (s.ch c).gain
  target : (t.ch c).gainTarget = 3840
  break_ : ∃ q, t.Flying c q ∧ q.number = r.number ∧ q.state = .joining
    ∧ q.plan = r.plan.map (fun p => { p with ret := x })
    ∧ q.run.map (fun u => u.cause) = r.run.map fun _ => cause
  asrun : t.asrun = s.asrun
  clock : t.clock = s.clock
  memory : t.memory = s.memory

variable {c : Fin 4} {r : BreakRecord} {x : AC} {cause : Cause} {t : State}

theorem State.Joining.of_besidePlay {u : State} (h : s.Joining c r x cause t)
    (hu : u.besidePlay = t.besidePlay) : s.Joining c r x cause u := by
  simp only [State.besidePlay, Prod.mk.injEq] at hu
  obtain ⟨⟨_, _, _, clock, _, memory, _, _⟩, chans, _, _, asrun, _, _, _⟩ := hu
  have same : u.ch c = t.ch c := ch_of_chans chans c
  obtain ⟨q, flying, rest⟩ := h.break_
  exact ⟨by rw [same, h.state], by rw [same, h.gain], by rw [same, h.target],
    ⟨q, flying.of_ch (by rw [same]), rest⟩, by rw [asrun, h.asrun], by rw [clock, h.clock],
    by rw [memory, h.memory]⟩

/-- A break record with its run parts changed. -/
def mapParts (f : Part → Part) (r : BreakRecord) : BreakRecord :=
  { r with run := r.run.map fun u => { u with parts := u.parts.map f } }

theorem modParts_eq (c : Fin 4) (n : Nat) (f : Part → Part) (s : State) :
    modParts c n f s = modRecord c n (mapParts f) s := rfl

theorem State.Joining.modParts (h : s.Joining c r x cause t) (f : Part → Part) :
    s.Joining c r x cause (modParts c r.number f t) := by
  obtain ⟨q, flying, number, state, plan, run⟩ := h.break_
  have flies : (modRecord c r.number (mapParts f) t).Flying c (mapParts f q) :=
    number ▸ flying.modRecord (fun _ => rfl) (by rw [mapParts, state]; rfl)
  have causes : (mapParts f q).run.map (fun u => u.cause) = r.run.map fun _ => cause := by
    rw [← run, mapParts, Option.map_map]
    rfl
  have ch : (modRecord c r.number (mapParts f) t).ch c =
      { t.ch c with queue := (t.ch c).queue.map (changeRecord r.number (mapParts f)) } := by
    rw [modRecord_ch, if_pos rfl]
  rw [modParts_eq]
  exact ⟨by rw [ch]; exact h.state, by rw [ch]; exact h.gain, by rw [ch]; exact h.target,
    ⟨_, flies, number, state, plan, causes⟩, h.asrun, h.clock, h.memory⟩

theorem takeOver_asrun (d : Fin 4) (t : State) : (takeOver d t).asrun = t.asrun := by
  unfold takeOver
  dsimp only
  split
  · split
    · exact fadeToZero_asrun ..
    · rfl
  · rfl

theorem openBreak_asrun (d : Fin 4) (t : State) : (openBreak d t).asrun = t.asrun := by
  unfold openBreak
  split
  · split
    · rfl
    · dsimp only
      split
      · rw [takeOver_asrun, modRecord_asrun, requestOpen_asrun]
      · rw [modRecord_asrun, requestOpen_asrun]
  · rfl

/-- The break of a channel whose flight is JOINING does not open. -/
theorem openBreak_joining {q : BreakRecord} (hq : t.flight c = some q) (hs : q.state = .joining) :
    openBreak c t = t := by
  have notDue : t.openDue c = false := by
    simp only [State.openDue, hq, hs]
    rfl
  simp only [openBreak, notDue, Bool.false_eq_true, if_false]

theorem forChannels_invariant {P : State → Prop} {f : Fin 4 → State → State}
    (hf : ∀ d t, P t → P (f d t)) {t : State} (ht : P t) : P (forChannels f t) :=
  hf 3 _ (hf 2 _ (hf 1 _ (hf 0 _ ht)))

theorem State.Joining.openDueBreaks (h : s.Joining c r x cause t) :
    s.Joining c r x cause (openDueBreaks t) := by
  refine forChannels_invariant (fun d u hu => ?_) h
  obtain ⟨q, flying, _, state, _⟩ := hu.break_
  by_cases hd : c = d
  · subst hd
    rwa [openBreak_joining flying.flight state]
  · have beside : u.SameAround d (openBreak d u) := State.sameAround_of_eq openBreak_around
    have same := beside.ch c hd
    obtain ⟨q, flying, rest⟩ := hu.break_
    exact ⟨by rw [same, hu.state], by rw [same, hu.gain], by rw [same, hu.target],
      ⟨q, flying.of_ch (by rw [same]), rest⟩, by rw [openBreak_asrun, hu.asrun],
      by rw [beside.clock, hu.clock], by rw [beside.memory, hu.memory]⟩

theorem State.Joining.stopForJoin (h : s.Joining c r x cause t) (v : Fin 16) :
    s.Joining c r x cause (stopForJoin c r.number v t) := by
  unfold Machine.stopForJoin
  dsimp only
  split
  · exact (h.of_besidePlay (fadeToZero_besidePlay ..)).modParts _
  · split
    · exact (h.of_besidePlay (cancelVoice_besidePlay ..)).modParts _
    · exact h

theorem State.Joining.cancelStarted (h : s.Joining c r x cause t) (v : Fin 16) :
    s.Joining c r x cause (cancelStarted c r.number v t) := by
  unfold Machine.cancelStarted
  dsimp only
  split
  · exact (h.of_besidePlay (cancelVoice_besidePlay ..)).modParts _
  · exact h

/-- Whatever the free order of a start and a join is, the break goes on joining. -/
theorem State.Joining.joinVoice (h : s.Joining c r x cause t) (v : Fin 16) :
    s.Joining c r x cause (joinVoice c r.number v t) := by
  unfold Machine.joinVoice
  split
  · have drawn : s.Joining c r x cause (drawFree t) := by
      obtain ⟨q, flying, rest⟩ := h.break_
      exact ⟨h.state, h.gain, h.target, ⟨q, flying.of_ch rfl, rest⟩, h.asrun, h.clock, h.memory⟩
    have opened := drawn.openDueBreaks
    unfold joinAround
    split
    · exact drawn.stopForJoin v
    · exact (opened.of_besidePlay (startThrough_besidePlay ..)).stopForJoin v
    · exact (opened.of_besidePlay (handleThrough_besidePlay ..)).stopForJoin v
    · exact (opened.of_besidePlay (startThrough_besidePlay ..)).cancelStarted v
    · exact (opened.of_besidePlay (handleThrough_besidePlay ..)).cancelStarted v
  · exact h.stopForJoin v

/-- With the gain still moving the break does not complete. -/
theorem State.Joining.checkBreakClear (h : s.Joining c r x cause t) (moving : (s.ch c).gain ≠ 3840) :
    s.Joining c r x cause (checkBreakClear c t) := by
  obtain ⟨q, flying, rest⟩ := h.break_
  have cleared : s.Joining c r x cause (t.setCh c { t.ch c with breakClear := true }) := by
    have same := State.ch_setCh_same t c { t.ch c with breakClear := true }
    exact ⟨by rw [same, h.state], by rw [same, h.gain], by rw [same, h.target],
      ⟨q, flying.of_ch (by rw [same]), rest⟩, h.asrun, h.clock, h.memory⟩
  have notDone : ((t.setCh c { t.ch c with breakClear := true }).ch c).joinDone = false := by
    have unity : (t.ch c).gain ≠ Config.unityCode := fun heq => moving (h.gain ▸ heq)
    rw [State.ch_setCh_same]
    simp [Channel.joinDone, unity]
  unfold Machine.checkBreakClear
  simp only [flying.flight]
  split
  · have marked : requestBreakClear c t =
        finishJoin c (t.setCh c { t.ch c with breakClear := true }) := if_pos h.state
    rw [marked, finishJoin, notDone, if_neg Bool.false_ne_true]
    exact cleared
  · exact h

/-- The channel goes from ON_BREAK to JOINING, its gain to unity over J_j (R70). -/
theorem requestJoin_ch (hs : (s.ch c).state = .onBreak) : (requestJoin c s).ch c = { s.ch c with
    state := .joining, breakClear := false
    gain := if (s.ch c).config.joinFade = 0 then 3840 else (s.ch c).gain
    gainTarget := 3840
    gainRate := fadeRate (distance 3840 (s.ch c).gain) (s.ch c).config.joinFade } := by
  unfold requestJoin
  dsimp only
  rw [if_neg (not_not.2 hs), fadeGain_ch, setChannelState_ch, State.ch_setCh_same]
  rfl

theorem joinBreak_onAir (flying : s.Flying c r) (hr : r.state = .onAir) : joinBreak c s =
    checkBreakClear c (modParts c r.number Part.unstarted (r.voices.foldl
      (fun t v => joinVoice c r.number v t)
      (requestJoin c (modRecord c r.number (fun q => { q with state := .joining }) s)))) := by
  simp only [joinBreak, flying.flight, hr, ne_eq, not_true_eq_false, if_false]

/-- A break record with its return moved (R145). -/
def moved (x : AC) (cause : Cause) (r : BreakRecord) : BreakRecord :=
  { r with
    plan := r.plan.map fun p => { p with ret := x }
    run := r.run.map fun u => { u with cause := cause } }

theorem moveReturn_eq (c : Fin 4) (n : Nat) (x : AC) (cause : Cause) (s : State) :
    moveReturn c n x cause s = modRecord c n (moved x cause) s := rfl

/-- A break that is ON_AIR and whose return is moved joins: its record and its channel are JOINING. -/
theorem joinBreak_joining (flying : s.Flying c r) (hr : r.state = .onAir)
    (hs : (s.ch c).state = .onBreak) (moving : (s.ch c).gain ≠ 3840)
    (fades : (s.ch c).config.joinFade ≠ 0) (x : AC) (cause : Cause) :
    s.Joining c r x cause (joinBreak c (moveReturn c r.number x cause s)) := by
  let u := modRecord c r.number (moved x cause) s
  let w := modRecord c r.number (fun q => { q with state := .joining }) u
  have flying1 : u.Flying c (moved x cause r) := flying.modRecord (fun _ => rfl) (by
    rw [moved, hr]; rfl)
  have flying2 : w.Flying c { moved x cause r with state := .joining } :=
    flying1.modRecord (fun _ => rfl) rfl
  have ch1 : u.ch c = { s.ch c with queue := (u.ch c).queue } := by
    simp only [u, modRecord_ch, if_true]
  have ch2 : w.ch c = { s.ch c with queue := (w.ch c).queue } := by
    have kept : w.ch c = { u.ch c with queue := (w.ch c).queue } := by
      simp only [w, modRecord_ch, if_true]
    rw [kept, ch1]
  have onBreak : (w.ch c).state = .onBreak := by rw [ch2]; exact hs
  have joins := requestJoin_ch onBreak
  have beside : w.SameAround c (requestJoin c w) := State.sameAround_of_eq requestJoin_around
  have begun : s.Joining c r x cause (requestJoin c w) := by
    refine ⟨by rw [joins], ?_, by rw [joins], ⟨_, flying2.of_ch (by rw [joins]), rfl, rfl, rfl, ?_⟩,
      ?_, ?_, ?_⟩
    · rw [joins]
      dsimp only
      rw [ch2]
      exact if_neg fades
    · simp only [moved, Option.map_map]
      rfl
    · rw [requestJoin_asrun]
      rfl
    · rw [beside.clock]
      rfl
    · rw [beside.memory]
      rfl
  have voices (l : List (Fin 16)) : s.Joining c r x cause
      (l.foldl (fun t v => joinVoice c r.number v t) (requestJoin c w)) := by
    induction l using List.reverseRecOn with
    | nil => exact begun
    | append_singleton l v ih =>
      rw [List.foldl_append]
      exact ih.joinVoice v
  rw [moveReturn_eq, joinBreak_onAir flying1 hr]
  exact ((voices _).modParts _).checkBreakClear moving

/-! ### The commands -/

theorem exec_breakCancel (s : State) :
    exec .breakCancel s = runRow (hasCode 0x31) false (sized 3 breakCancel) s := rfl

theorem exec_breakAbort (s : State) :
    exec .breakAbort s = runRow (hasCode 0x34) false (sized 1 breakAbort) s := rfl

theorem breakCancel_waiting {b : List Byte} (hc : byteAt b 0 = c.val) (hn : field b 1 2 = r.number)
    (allowed : 1 ≤ r.number ∧ r.number ≤ 65535) (hr : s.record c r.number = some r)
    (waiting : r.state.inFlight = false) : breakCancel b s = accept (removeRecord c r.number s) := by
  have named : breakNumberAllowed r.number = true := by simp [breakNumberAllowed, allowed]
  simp only [breakCancel, hc, channelOf_val, hn, named, hr, waiting, Bool.true_eq_false,
    Bool.false_eq_true, if_false]

theorem breakCancel_inFlight {b : List Byte} (hc : byteAt b 0 = c.val) (hn : field b 1 2 = r.number)
    (allowed : 1 ≤ r.number ∧ r.number ≤ 65535) (hr : s.record c r.number = some r)
    (inFlight : r.state.inFlight = true) :
    breakCancel b s = abortReply (abortBreak c s).1 (abortBreak c s).2 := by
  have named : breakNumberAllowed r.number = true := by simp [breakNumberAllowed, allowed]
  simp only [breakCancel, hc, channelOf_val, hn, named, hr, inFlight, Bool.true_eq_false,
    if_false, if_true]

theorem breakAbort_eq {b : List Byte} (hc : byteAt b 0 = c.val) :
    breakAbort b s = abortReply (abortBreak c s).1 (abortBreak c s).2 := by
  simp only [breakAbort, hc, channelOf_val]

/-- The reply of an abort changes nothing. -/
theorem abortReply_eq (a : AbortAnswer) (s : State) : abortReply a s = ((abortReply a s).1, s) := by
  cases a <;> rfl

theorem abortBreak_none (hf : s.flight c = none) : abortBreak c s = (.noFlight, s) := by
  simp only [abortBreak, hf]

theorem abortBreak_joining {p : Plan} (hf : s.flight c = some r) (hr : r.state = .joining)
    (hp : r.plan = some p) : abortBreak c s = (.joining r.number p.ret, s) := by
  simp only [abortBreak, hf, hr, BreakRecord.ret, hp, Option.map_some, Option.getD_some]

theorem abortBreak_onAir (hf : s.flight c = some r) (hr : r.state = .onAir) : abortBreak c s =
    (.joining r.number s.clock.ac, joinBreak c (moveReturn c r.number s.clock.ac .abort s)) := by
  simp only [abortBreak, hf, hr]

theorem abortBreak_preroll (hf : s.flight c = some r) (hr : r.state = .preroll) : abortBreak c s =
    (.withdrawn r.number, withdrawBreak c .abort s) := by
  simp only [abortBreak, hf, hr]

theorem cancelAndAbort_answer : cancelAndAbortAnswer := by
  have numberField (c : Fin 4) {n : Nat} (hn : n ≤ 65535) :
      field ([BitVec.ofNat 8 c.val] ++ toBytes n 2) 1 2 = n := by
    have read := field_afterByte (BitVec.ofNat 8 c.val) (Nat.lt_succ_of_le hn) []
    rwa [List.append_nil] at read
  have removed (c : Fin 4) (n : Nat) (u : State) : u.SameAround c (removeRecord c n u) :=
    State.sameAround_of_eq (removeRecord_around n)
  refine ⟨fun s src h c r rest hf low high hready hcode hr waiting clips => ?_,
    fun s src h c r rest low high hready hcode hr inFlight => ?_, ?_⟩
  · let u := taken s rest
    have stays : r.state.inFlight = false := by
      rcases waiting with h | h <;> rw [h] <;> rfl
    have kept : u.record c r.number = some r := hr
    have beside := removed c r.number u
    refine ⟨removeRecord c r.number u, ?_, ?_, fun d hd => beside.ch d hd, fun n => ?_, ?_, ?_,
      beside.clock, beside.memory⟩
    · exact answers_of_work (exec_breakCancel s) hready hcode (by rfl)
        (breakCancel_waiting (s := u) (byteAt_channel c _) (numberField c high) ⟨low, high⟩ hr stays)
    · rw [removeRecord_ch kept, if_pos rfl]
      rfl
    · rw [(removeRecord_returned (s := u) hf kept).2 n]
      rfl
    · rw [removeRecord_asrun]
      rfl
    · obtain ⟨d, held⟩ := releaseHolds_store r.clips u
      rw [removeRecord_found kept, held]
      rfl
  · exact answers_of_work (exec_breakCancel s) hready hcode (by rfl)
      ((breakCancel_inFlight (s := taken s rest) (byteAt_channel c _) (numberField c high) ⟨low, high⟩
        hr inFlight).trans (abortReply_eq _ _))
  intro s src h c rest hready hcode u a
  have run {q : Reply} {t : State} (ha : abortReply (abortBreak c u).1 (abortBreak c u).2 = (q, t)) :
      answers .breakAbort s src h q t :=
    answers_of_work (exec_breakAbort s) hready hcode rfl
      ((breakAbort_eq (byteAt_channel c [])).trans ha)
  refine ⟨run (abortReply_eq _ _), fun none_ => run ?_, fun r p hfl hr hp => run ?_,
    fun r p hfl hrec hr hp hs moving fades => ?_⟩
  · rw [abortBreak_none (s := u) none_]
    rfl
  · rw [abortBreak_joining (s := u) hfl hr hp]
    rfl
  · have flying : u.Flying c r := ⟨hfl, hrec⟩
    have joins := joinBreak_joining flying hr hs moving fades u.clock.ac .abort
    obtain ⟨q, flies, number, state, plan, run_⟩ := joins.break_
    refine ⟨_, q, run ?_, joins.state, joins.target, number ▸ flies.record, state, ?_, run_,
      joins.asrun, joins.clock, joins.memory⟩
    · rw [abortBreak_onAir (s := u) hfl hr]
      rfl
    · rw [plan, hp]
      rfl

/-! ### A break withdrawn in PREROLL (R147) -/

/-- A PRIMED voice becomes RESERVED, any other stays. -/
def cancelPrimed (v : Fin 16) (s : State) : State :=
  if (s.voice v).state = .primed then (cancelVoice v s).2 else s

theorem cancelPrimed_voice (v w : Fin 16) (s : State) : (cancelPrimed v s).voice w =
    if w = v ∧ (s.voice v).state = .primed then { s.voice v with state := .reserved }
    else s.voice w := by
  unfold cancelPrimed
  by_cases primed : (s.voice v).state = .primed
  · simp only [primed, if_true, cancelVoice, and_true]
    rw [State.voice_setVoice]
  · simp only [primed, if_false, and_false]

theorem cancelPrimed_besidePlay (v : Fin 16) (s : State) :
    (cancelPrimed v s).besidePlay = s.besidePlay := by
  unfold cancelPrimed
  split
  · exact cancelVoice_besidePlay v s
  · rfl

theorem cancelPrimed_voiceHold (v w : Fin 16) (n : Nat) (s : State) :
    (cancelPrimed v s).voiceHold w n = s.voiceHold w n := by
  simp only [State.voiceHold, cancelPrimed_voice]
  split
  · next both => simp [both.1, both.2]
  · rfl

theorem cancelPrimed_free (v w : Fin 16) (s : State) :
    ((cancelPrimed v s).voice w).state = .free ↔ (s.voice w).state = .free := by
  rw [cancelPrimed_voice]
  split
  · next both => simp [both.1, both.2]
  · rfl

theorem finishReturn_waits (h : (s.ch c).returnDone = false) : finishReturn c s = s :=
  if_neg fun both => Bool.false_ne_true (h ▸ both.2)

/-- The channel goes back to where its preroll came from (R70). -/
theorem requestWithdraw_ch (hs : (s.ch c).state = .preroll) (he : (s.ch c).emClear = false) :
    (requestWithdraw c s).ch c = { s.ch c with
      state := if (s.ch c).origin = some .emergency then .emergency else .network
      origin := none } := by
  unfold requestWithdraw
  dsimp only
  rw [if_neg (not_not.2 hs)]
  cases origin : (s.ch c).origin with
  | none => simp only [setChannelState_ch, State.ch_setCh_same, reduceCtorEq, if_false]
  | some o =>
    cases o with
    | network =>
      simp [setChannelState_ch]
    | emergency =>
      have stays : ((setChannelState c .emergency
          (s.setCh c { s.ch c with origin := none })).ch c).returnDone = false := by
        simp [setChannelState_ch, Channel.returnDone, he]
      dsimp only
      rw [finishReturn_waits stays, setChannelState_ch, State.ch_setCh_same, if_pos rfl]

theorem withdrawBreak_eq {p : Plan} {a b : Fin 16} (hf : s.flight c = some r)
    (hp : r.plan = some p) (hv : p.voices = some (a, b)) (cause : Cause) :
    withdrawBreak c cause s = removeRecord c r.number (requestWithdraw c (releaseVoices [a, b]
      (cancelPrimed b (cancelPrimed a (asrunWriteAll
        (plannedRows s c r p fun _ => (.notAired, cause, none)) s))))) := by
  simp only [withdrawBreak, hf, hp, flight_voices hp hv]
  rfl

theorem abort_withdrawsAPreroll : abortWithdrawsAPreroll := by
  intro s src h c r p start a b rest hready hcode hf hfl hrec hr hp hstart hv hab usedA usedB hs he
    rows room
  let u := taken s rest
  let u1 := asrunWriteAll rows u
  let u2 := cancelPrimed b (cancelPrimed a u1)
  let u3 := releaseVoices [a, b] u2
  let u4 := requestWithdraw c u3
  have hrows : plannedRows u c r p (fun _ => (.notAired, .abort, none)) = rows := by
    simp only [plannedRows, hstart]
    rfl
  have withdrawn : withdrawBreak c .abort u = removeRecord c r.number u4 := by
    rw [withdrawBreak_eq (s := u) hfl hp hv, hrows]
  have chans : u3.chans = s.chans := by
    have play : u2.besidePlay = u1.besidePlay :=
      (cancelPrimed_besidePlay b _).trans (cancelPrimed_besidePlay a _)
    simp only [State.besidePlay, Prod.mk.injEq] at play
    obtain ⟨_, chans, _⟩ := play
    rw [releaseVoices_chans, chans, asrunWriteAll_chans]
    rfl
  have ch3 (d : Fin 4) : u3.ch d = s.ch d := ch_of_chans chans d
  have ch4 : u4.ch c = _ := requestWithdraw_ch (s := u3) (by rw [ch3]; exact hs)
    (by rw [ch3]; exact he)
  have found : u4.record c r.number = some r := by
    rw [State.record, ch4, ch3]
    exact hrec
  have used {v : Fin 16} (hv : (s.voice v).state ≠ .free) : (u2.voice v).state ≠ .free := by
    rw [Ne, cancelPrimed_free, cancelPrimed_free, asrunWriteAll_voice]
    exact hv
  have play : u2.besidePlay = u1.besidePlay :=
    (cancelPrimed_besidePlay b _).trans (cancelPrimed_besidePlay a _)
  simp only [State.besidePlay, Prod.mk.injEq] at play
  obtain ⟨⟨_, _, _, _, _, memory, store, _⟩, _, _, _, asrun, _⟩ := play
  have back1 : u.Returned (fun _ => 0) u2 :=
    (State.returned_none (s := u) hf).of_eq (by rw [memory, asrunWriteAll_memory])
      (by rw [store, asrunWriteAll_store])
  have back2 := back1.trans (releaseVoices_returned back1.1 (l := [a, b]) (by simpa using hab))
  have same4 : u3.SameAround c u4 := State.sameAround_of_eq requestWithdraw_around
  have back3 := (back2.of_eq (u := u4) same4.memory (requestWithdraw_store c u3))
  have back4 := back3.trans (removeRecord_returned back3.1 found)
  have beside : u.SameAround c (withdrawBreak c .abort u) :=
    State.sameAround_of_eq (withdrawBreak_around .abort)
  have voices (v : Fin 16) : (withdrawBreak c .abort u).voice v =
      if v ∈ [a, b] ∧ (u2.voice v).state ≠ .free then Voice.freed else u2.voice v := by
    rw [withdrawn, removeRecord_voice, requestWithdraw_voice, releaseVoices_voice]
  have hold {v : Fin 16} (hv : (s.voice v).state ≠ .free) (n : Nat) :
      u2.voiceHold v n = if (s.voice v).clip = some n then 1 else 0 := by
    rw [cancelPrimed_voiceHold, cancelPrimed_voiceHold, State.voiceHold, asrunWriteAll_voice]
    have mine : u.voice v = s.voice v := rfl
    simp only [mine, hv, ne_eq, not_false_eq_true, true_and]
  refine ⟨withdrawBreak c .abort u, ?_, ?_, ?_, ?_, ?_, fun v ha hb => ?_, fun n => ?_,
    fun d hd => beside.ch d hd, beside.memory, beside.clock, beside.tx⟩
  · refine answers_of_work (exec_breakAbort s) hready hcode rfl
      ((breakAbort_eq (byteAt_channel c [])).trans ?_)
    rw [abortBreak_preroll (s := u) hfl hr]
    exact congrArg (fun l => (Reply.done false false (toBytes r.number 2 ++ [0] ++ l), _))
      (show toBytes 0 4 = [0, 0, 0, 0] by decide) |>.trans (by simp)
  · rw [withdrawn, removeRecord_ch found, if_pos rfl, ch4, ch3]
  · rw [withdrawn, removeRecord_asrun, requestWithdraw_asrun, releaseVoices_asrun, asrun]
    exact asrunWriteAll_room (s := u) room
  · rw [voices, if_pos ⟨by simp, used usedA⟩]
  · rw [voices, if_pos ⟨by simp, used usedB⟩]
  · rw [voices, if_neg (by simp [ha, hb]), cancelPrimed_voice, if_neg fun both => hb both.1,
      cancelPrimed_voice, if_neg fun both => ha both.1, asrunWriteAll_voice]
    rfl
  · rw [withdrawn, back4.2 n]
    have both : u2.voiceHolds [a, b] n = (if (s.voice a).clip = some n then 1 else 0)
        + if (s.voice b).clip = some n then 1 else 0 := by
      simp [State.voiceHolds, hold usedA, hold usedB]
    simp only [DirEntry.less, both]
    rw [taken_entry]
    omega

/-- Settles O55, claim by claim. -/
theorem breakCancelAndAbort : Obligations.BreakCancelAndAbort :=
  ⟨cancelAndAbort_answer, abort_withdrawsAPreroll⟩

end Sys2Proof.Machine
end

section
/-! PROOFS. CHANNEL_SET: the fields it reads, its checks in their order, and what it replaces (R65, R66). -/

namespace Sys2Proof.Machine

open Claim

variable {s : State} {src : Byte} {h : CmdHeader} {rest : List Command}

theorem exec_channelSet (s : State) :
    exec .channelSet s = runRow (hasCode 0x10) false (sized 40 channelSet) s := rfl

/-! ### The fields of a body -/

theorem configEdit_has (b : List Byte) {i : Nat} (hi : i < 17) :
    (configEdit b).has i = (field b 1 4).testBit i := by
  rw [ConfigEdit.has, configEdit, Nat.testBit_mod_two_pow]
  simp [hi]

theorem configEdit_num (b : List Byte) (off k : Nat) :
    (configEdit b).num off k = field b (5 + off) k := by
  rw [ConfigEdit.num, configEdit, field, List.drop_drop, field]

theorem clampFade_eq (j : Nat) : clampFade j = if j = 0 then 0 else min (max j 17) 1023 := rfl

theorem clipOrAbsent_eq (n : Nat) : clipOrAbsent n = if n = 0xFFFF then none else some n := rfl

theorem configEdit_apply (b : List Byte) (old : ChannelConfig) :
    (configEdit b).apply old = fieldsReplaced b old := by
  simp (disch := decide) only [ConfigEdit.apply, ConfigEdit.pick, configEdit_num, clampFade_eq,
    clipOrAbsent_eq, configEdit_has, field_byte, clampNat, fieldsReplaced]

theorem configEdit_clamped (b : List Byte) (old : ChannelConfig) :
    (configEdit b).clamped old = fieldsClamped b (fieldsReplaced b old) := by
  simp (disch := decide) only [ConfigEdit.clamped, ConfigEdit.clamps, configEdit_apply,
    configEdit_num, configEdit_has, field_byte, fieldsClamped, List.any_cons, List.any_nil,
    Bool.or_false, Bool.or_assoc, bne_comm]

theorem clipAllowed_iff (n : Nat) : clipAllowed n = true ↔ n ≤ 1023 ∨ n = 0xFFFF := by
  simp [clipAllowed, or_comm]

theorem configEdit_known (b : List Byte) : (configEdit b).known = decide (setKnown b) := by
  rw [Bool.eq_iff_iff, decide_eq_true_iff]
  simp (disch := decide) only [ConfigEdit.known, configEdit_has, configEdit_num, field_byte,
    flagOf_eq, setKnown, Bool.and_eq_true, Bool.or_eq_true, Bool.not_eq_true', decide_eq_true_iff,
    clipAllowed_iff, and_assoc]
  grind

/-! ### The checks in their order -/

theorem slotsTaken_eq (c : Fin 4) (l r : Nat) (s : State) : s.slotsTaken c l r =
    allChannels.any fun d => d != c && (s.ch d).config.enable
      && (((s.ch d).config.slotL == l || (s.ch d).config.slotL == r)
        || ((s.ch d).config.slotR == l || (s.ch d).config.slotR == r)) := by
  simp only [State.slotsTaken, Bool.or_assoc]

theorem ownsVoice_eq (c : Fin 4) (s : State) : s.ownsVoice c =
    allVoices.any fun v => (s.voice v).owner.any fun o => o.channel == c := by
  refine List.any_congr rfl fun v => ?_
  unfold Voice.ownedBy
  cases (s.voice v).owner <;> rfl

theorem channelSetCheck_eq (c : Fin 4) (b : List Byte) (s : State) :
    channelSetCheck c (configEdit b) s = firstFlag (setChecks s c b) := by
  unfold channelSetCheck setChecks
  simp only [firstFlag_cons, firstFlag_nil, configEdit_apply, configEdit_known, slotsTaken_eq,
    ownsVoice_eq, Bool.and_eq_true, bne_iff_ne, beq_iff_eq, ne_eq]

/-! ### What the command does -/

variable {b : List Byte} {c : Fin 4}

theorem channelSet_absent (hc : byteAt b 0 = c.val) (none_ : field b 1 4 % 2 ^ 17 = 0) :
    channelSet b s = configReply c false s := by
  simp only [channelSet, hc, channelOf_val]
  exact if_pos none_

theorem channelSet_refused {f : ErrFlag} (hc : byteAt b 0 = c.val)
    (given : field b 1 4 % 2 ^ 17 ≠ 0) (hf : firstFlag (setChecks s c b) = some f) :
    channelSet b s = refuse f s := by
  have check : channelSetCheck c (configEdit b) s = some f := (channelSetCheck_eq c b s).trans hf
  simp only [channelSet, hc, channelOf_val, check]
  exact if_neg given

theorem channelSet_accepted (hc : byteAt b 0 = c.val) (given : field b 1 4 % 2 ^ 17 ≠ 0)
    (hf : firstFlag (setChecks s c b) = none) : channelSet b s =
      configReply c (fieldsClamped b (fieldsReplaced b (s.ch c).config))
        (applyChannelSet c (configEdit b) s) := by
  have check : channelSetCheck c (configEdit b) s = none := (channelSetCheck_eq c b s).trans hf
  simp only [channelSet, hc, channelOf_val, check, configEdit_clamped]
  exact if_neg given

theorem setCh_twice (c : Fin 4) (x y : Channel) (s : State) :
    (s.setCh c x).setCh c y = s.setCh c y := by
  simp [State.setCh, State.setChans]

/-- A new state with the same ON AIR level is only stored (R192). -/
theorem setChannelState_quiet {new : ChannelState} (quiet : (s.ch c).state.onAir = new.onAir) :
    setChannelState c new s = s.setCh c { s.ch c with state := new } := by
  unfold setChannelState
  exact if_pos (beq_iff_eq.2 quiet)

/-- The ALERT a unit holds ready when it starts one (R192). -/
def readyAfter (a : AlertUnit) (addr : Byte) (snapshot : BitVec 32) (ac : AC) : ReadyAlert where
  dest := a.dest
  src := addr
  number := (a.number + 1) % 256
  changed := a.changed ||| (a.ready.map fun r => r.changed).getD 0
  snapshot := snapshot
  lockCount := min (a.lockCount + (a.ready.map fun r => r.lockCount).getD 0) 255
  ac := ac

/-- The alert unit after a source has changed (R192). -/
def alertAfter (src : AlertSource) (a : AlertUnit) (addr : Byte) (snapshot : BitVec 32) (ac : AC) :
    AlertUnit :=
  let b := { a with
    changed := a.changed ||| src.mask
    lockCount := if src = .lock then min (a.lockCount + 1) 255 else a.lockCount }
  if a.mask &&& src.mask = 0 then a
  else if a.pending then b
  else { b with
    pending := true, number := (a.number + 1) % 256, changed := 0, lockCount := 0
    ready := some (readyAfter b addr snapshot ac) }

theorem buildAlert_eq_ready (s : State) : buildAlert s = s.setAlert { s.alert with
    number := (s.alert.number + 1) % 256, changed := 0, lockCount := 0
    ready := some (readyAfter s.alert s.lane.unitAddr s.snapshot s.clock.ac) } := by
  cases ready : s.alert.ready with
  | none => simp [buildAlert_of_noReady ready, readyAfter, ready]
  | some r => simp [buildAlert_of_ready ready, readyAfter, ready]

theorem raiseAlert_eq_after (src : AlertSource) (s : State) : raiseAlert src s =
    s.setAlert (alertAfter src s.alert s.lane.unitAddr s.snapshot s.clock.ac) := by
  unfold raiseAlert alertAfter
  simp only [buildAlert_eq_ready]
  by_cases masked : s.alert.mask &&& src.mask = 0
  · rw [if_pos masked, if_pos masked]
    rfl
  · rw [if_neg masked, if_neg masked]
    cases s.alert.pending <;> rfl

/-- A channel with the levels it had changes nothing of an ALERT (R192). -/
theorem raiseAlert_setCh {y : Channel} (src : AlertSource)
    (silence : y.monitor.silence = (s.ch c).monitor.silence)
    (onAir : y.state.onAir = (s.ch c).state.onAir) :
    raiseAlert src (s.setCh c y) = (raiseAlert src s).setCh c y := by
  have silences (d : Fin 4) : ((s.setCh c y).ch d).monitor.silence = (s.ch d).monitor.silence := by
    rw [State.ch_setCh]
    split
    · next same => rw [same, silence]
    · rfl
  have onAirs (d : Fin 4) : ((s.setCh c y).ch d).state.onAir = (s.ch d).state.onAir := by
    rw [State.ch_setCh]
    split
    · next same => rw [same, onAir]
    · rfl
  have snapshot : (s.setCh c y).snapshot = s.snapshot := by
    simp only [State.snapshot, silences, onAirs]
    rfl
  rw [raiseAlert_eq_after, raiseAlert_eq_after, snapshot]
  rfl

/-- A configuration is changed only in HALTED and NETWORK, in neither ON AIR (check 3 of R65). -/
theorem setChecks_offAir (pass : firstFlag (setChecks s c b) = none) :
    (s.ch c).state.onAir = false := by
  have none_ : (setChecks s c b).find? (fun q => q.1) = none := Option.map_eq_none_iff.1 pass
  have second := List.find?_eq_none.1 none_
    ((s.ch c).state != .halted && (s.ch c).state != .network, .state) (by simp [setChecks])
  cases state : (s.ch c).state
  all_goals simp [state] at second
  all_goals rfl

theorem applyChannelSet_same (same : (s.ch c).config.enable =
    (fieldsReplaced b (s.ch c).config).enable) : applyChannelSet c (configEdit b) s =
      s.setCh c { s.ch c with config := fieldsReplaced b (s.ch c).config } := by
  simp only [applyChannelSet, configEdit_apply, ← same]
  cases (s.ch c).config.enable <;> rfl

theorem applyChannelSet_on (pass : firstFlag (setChecks s c b) = none)
    (off : (s.ch c).config.enable = false)
    (on : (fieldsReplaced b (s.ch c).config).enable = true) : applyChannelSet c (configEdit b) s =
      s.setCh c { s.ch c with
        config := fieldsReplaced b (s.ch c).config, state := .network, gain := 3840
        gainTarget := 3840 } := by
  have quiet := setChecks_offAir pass
  simp only [applyChannelSet, configEdit_apply, on, off, Bool.not_false, Bool.and_self, if_true,
    enableChannel, State.ch_setCh_same, setCh_twice]
  rw [setChannelState_quiet (by rw [State.ch_setCh_same]; exact quiet), State.ch_setCh_same,
    setCh_twice]

theorem applyChannelSet_off (pass : firstFlag (setChecks s c b) = none)
    (on : (s.ch c).config.enable = true)
    (off : (fieldsReplaced b (s.ch c).config).enable = false) : applyChannelSet c (configEdit b) s =
      (if (s.ch c).monitor.silence then raiseAlert (.silence c) else id) (s.setCh c { s.ch c with
        config := fieldsReplaced b (s.ch c).config, state := .halted
        monitor := { (s.ch c).monitor with
          silentCount := 0, silence := false, limitReached := false, recoveryCount := 0
          peaks := none } }) := by
  have quiet := setChecks_offAir pass
  simp only [applyChannelSet, configEdit_apply, on, off, Bool.not_false, Bool.and_true,
    Bool.not_true, Bool.and_false, Bool.false_eq_true, if_false, if_true, disableChannel]
  rw [setChannelState_quiet (by rw [State.ch_setCh_same]; exact quiet), State.ch_setCh_same,
    setCh_twice, clearSilence]
  cases silence : (s.ch c).monitor.silence
  · simp [State.mon, State.setMonitor, setCh_twice, silence]
  · simp only [State.mon, State.setMonitor, setCh_twice, silence, State.ch_setCh_same, if_true,
      raiseAlert_ch]
    rw [← raiseAlert_setCh _ (by rw [State.ch_setCh_same]) (by rw [State.ch_setCh_same]), setCh_twice]

theorem channelSet_replacesTheFields : channelSetReplacesTheFields := by
  intro s src h body rest hready hcode hlen u
  have run {q : Reply} {t : State} (hw : channelSet body u = (q, t)) :
      answers .channelSet s src h q t := answers_of_work (exec_channelSet s) hready hcode hlen hw
  constructor
  · intro above
    refine run ?_
    simp only [channelSet, channelOf_of_le (by omega : 4 ≤ byteAt body 0)]
    rfl
  intro c hc x new given failing done
  refine ⟨fun none_ => run ?_, fun q given_ hq => run ?_, fun given_ pass same => run ?_,
    fun given_ pass off on => run ?_, fun given_ pass on off => run ?_⟩
  · rw [channelSet_absent (s := u) hc (not_not.1 none_)]
    rfl
  · exact channelSet_refused (s := u) hc given_ (congrArg (Option.map _) hq)
  all_goals rw [channelSet_accepted (s := u) hc given_ (congrArg (Option.map _) pass)]
  · rw [applyChannelSet_same (s := u) same, configReply, State.ch_setCh_same]
    rfl
  · rw [applyChannelSet_on (s := u) (congrArg (Option.map _) pass) off on, configReply,
      State.ch_setCh_same]
    rfl
  · have config (y : Channel) : (((if (u.ch c).monitor.silence then raiseAlert (.silence c) else id)
        (u.setCh c y)).ch c) = y := by
      split
      · rw [raiseAlert_ch, State.ch_setCh_same]
      · exact State.ch_setCh_same ..
    rw [applyChannelSet_off (s := u) (congrArg (Option.map _) pass) on off, configReply, config]
    rfl

/-- Settles O46, claim by claim. -/
theorem channelSetReplacesTheFields : Obligations.ChannelSetReplacesTheFields :=
  ⟨channelSet_replacesTheFields, configFields_atOffsets⟩

end Sys2Proof.Machine
end

section
/-! PROOFS. CHANNEL_RESET: what it records, the rest it leaves the channel in, and the voices and holds it
gives back (R83, R84, R150, R161). -/

namespace Sys2Proof.Machine

open Claim

variable {s : State}

/-! ### What a reset records -/

theorem airStart_begunAt (v : Fin 16) (taken : Option AC) :
    s.airStart v taken = begunAt s v taken := by
  cases taken with
  | some a => rfl
  | none =>
    unfold State.airStart begunAt
    rw [State.pendingAC]
    cases s.events.find? fun e => e.voice == v && e.kind == .started <;> rfl

theorem airEnd_silentAt (v : Fin 16) : s.airEnd v = silentAt s v := by
  unfold State.airEnd silentAt
  rw [State.pendingAC]
  cases s.events.find? fun e => e.voice == v && e.kind != .started <;> rfl

theorem resetAired_cutAiring (p : Part) : resetAired s p = cutAiring s p := by
  unfold resetAired cutAiring
  rw [airEnd_silentAt, airStart_begunAt]
  cases p.state <;> rfl

theorem plannedRows_itemRecords (c : Fin 4) (r : BreakRecord) (plan : Plan)
    (came : PlanItem → Ending) : plannedRows s c r plan came = itemRecords s c r plan came := rfl

theorem resetBreakRows_none {c : Fin 4} (hf : s.flight c = none) : resetBreakRows c s = [] := by
  rw [resetBreakRows, hf]

theorem resetBreakRows_noPlan {c : Fin 4} {r : BreakRecord} (hf : s.flight c = some r)
    (hp : r.plan = none) : resetBreakRows c s = [] := by
  simp only [resetBreakRows, hf, hp]

theorem resetBreakRows_planned {c : Fin 4} {r : BreakRecord} {plan : Plan}
    (hf : s.flight c = some r) (hp : r.plan = some plan) :
    resetBreakRows c s = breakResetRecords s c r plan := by
  simp only [resetBreakRows, hf, hp, breakResetRecords, partFor, plannedRows_itemRecords]
  congr 1
  · congr 1
    funext i
    cases r.parts.find? fun p => PartKind.isItem i.number p.kind with
    | none => rfl
    | some p =>
      cases aired : cutAiring s p <;>
        simp only [resetEnding, resetAired_cutAiring, Option.bind_some, aired]
  · cases r.parts.find? fun p => PartKind.isFill p.kind with
    | none => rfl
    | some p =>
      simp only [resetAired_cutAiring, Option.bind_some]
      cases cutAiring s p <;> rfl

theorem resetCartRows_eq (c : Fin 4) : resetCartRows c s =
    allVoices.filterMap fun v => ((s.ch c).carts.find? fun k => k.voice == v).map fun k =>
      endedRecord s c .cart v k.clip k.spotKey k.startAC := by
  unfold resetCartRows
  congr 1
  funext v
  congr 1
  funext k
  unfold endedRecord
  simp only [airEnd_silentAt, airStart_begunAt]
  cases begunAt s v k.startAC <;> rfl

theorem resetEmergencyRows_eq (c : Fin 4) : resetEmergencyRows c s =
    (s.ch c).monitor.emRecord.toList.map fun k =>
      endedRecord s c .emergency k.voice k.clip k.spotKey k.startAC := by
  unfold resetEmergencyRows State.mon
  obtain noFill | ⟨k, hk⟩ := Option.eq_none_or_eq_some (s.ch c).monitor.emRecord
  · simp only [noFill, Option.toList_none, List.map_nil]
  · simp only [hk, endedRecord, airEnd_silentAt, airStart_begunAt, Option.toList_some, List.map_cons,
      List.map_nil]
    cases begunAt s k.voice k.startAC <;> rfl

theorem resetRows_eq (c : Fin 4) (s : State) : resetRows c s = resetRecords s c := by
  unfold resetRows resetRecords
  rw [resetCartRows_eq, resetEmergencyRows_eq]
  congr 2
  obtain noFlight | ⟨r, hr⟩ := Option.eq_none_or_eq_some (s.flight c)
  · rw [resetBreakRows_none noFlight, noFlight]
  · obtain noPlan | ⟨plan, hp⟩ := Option.eq_none_or_eq_some r.plan
    · rw [resetBreakRows_noPlan hr noPlan]
      simp only [hr, noPlan, Option.toList_none, List.flatMap_nil]
    · rw [resetBreakRows_planned hr hp]
      simp only [hr, hp, Option.toList_some, List.flatMap_cons, List.flatMap_nil, List.append_nil]

theorem resetRecords_nil {c : Fin 4} (flight : s.flight c = none) (carts : (s.ch c).carts = [])
    (em : (s.ch c).monitor.emRecord = none) : resetRecords s c = [] := by
  unfold resetRecords
  rw [flight, carts, em]
  rfl

/-! ### The voices of a channel given back -/

/-- The voices that a channel owns. -/
def State.voicesOf (s : State) (c : Fin 4) : List (Fin 16) :=
  allVoices.filter fun v => (s.voice v).ownedBy c

theorem ownedBy_eq (x : Voice) (c : Fin 4) : x.ownedBy c = x.owner.any fun o => o.channel == c := by
  unfold Voice.ownedBy
  cases x.owner <;> rfl

theorem mem_allVoices (v : Fin 16) : v ∈ allVoices := by
  revert v
  decide

theorem allVoices_nodup : allVoices.Nodup := by decide

theorem mem_voicesOf (c : Fin 4) (v : Fin 16) :
    v ∈ s.voicesOf c ↔ (s.voice v).owner.any (fun o => o.channel == c) = true := by
  rw [State.voicesOf, List.mem_filter, ownedBy_eq]
  simp only [mem_allVoices, true_and]

theorem releaseOwned_eq (c : Fin 4) {l : List (Fin 16)} (hl : l.Nodup) (s : State) :
    l.foldl (fun t v => if (t.voice v).ownedBy c then releaseVoice v t else t) s =
      releaseVoices (l.filter fun v => (s.voice v).ownedBy c) s := by
  induction l generalizing s with
  | nil => rfl
  | cons v l ih =>
    obtain ⟨fresh, hl⟩ := List.nodup_cons.1 hl
    rw [List.foldl_cons, List.filter_cons]
    by_cases hv : (s.voice v).ownedBy c = true
    · rw [if_pos hv, if_pos hv, ih hl, releaseVoices_cons]
      refine congrArg (releaseVoices · _) (List.filter_congr fun w hw => ?_)
      have hne : w ≠ v := fun same => fresh (same ▸ hw)
      rw [releaseVoice_voice, if_neg fun both => hne both.1]
    · rw [if_neg hv, if_neg hv, ih hl]

theorem releaseChannelVoices_eq (c : Fin 4) (s : State) :
    releaseChannelVoices c s = releaseVoices (s.voicesOf c) s := releaseOwned_eq c allVoices_nodup s

theorem releaseChannelVoices_owned {c : Fin 4} {v : Fin 16}
    (h : (s.voice v).owner.any (fun o => o.channel == c) = true) :
    ((releaseChannelVoices c s).voice v).state = .free := by
  rw [releaseChannelVoices_eq, releaseVoices_voice]
  by_cases free : (s.voice v).state = .free
  · rw [if_neg fun both => both.2 free, free]
  · rw [if_pos ⟨(mem_voicesOf c v).2 h, free⟩]
    rfl

theorem releaseChannelVoices_other {c : Fin 4} {v : Fin 16}
    (h : (s.voice v).owner.any (fun o => o.channel == c) = false) :
    (releaseChannelVoices c s).voice v = s.voice v := by
  rw [releaseChannelVoices_eq, releaseVoices_voice, if_neg]
  rintro ⟨mine, -⟩
  rw [mem_voicesOf, h] at mine
  exact Bool.false_ne_true mine

theorem voiceHolds_voicesOf (c : Fin 4) (n : Nat) : s.voiceHolds (s.voicesOf c) n =
    (allVoices.filter fun v => (s.voice v).state != .free
      && (s.voice v).owner.any (fun o => o.channel == c) && (s.voice v).clip == some n).length := by
  have counts : ∀ l : List (Fin 16),
      ((l.filter fun v => (s.voice v).ownedBy c).map fun v => s.voiceHold v n).sum =
        (l.filter fun v => (s.voice v).state != .free
          && (s.voice v).owner.any (fun o => o.channel == c) && (s.voice v).clip == some n).length := by
    intro l
    induction l with
    | nil => rfl
    | cons v l ih =>
      simp only [List.filter_cons, ownedBy_eq, State.voiceHold] at ih ⊢
      by_cases mine : (s.voice v).owner.any (fun o => o.channel == c) = true
      · by_cases held : (s.voice v).state ≠ .free ∧ (s.voice v).clip = some n
        · simp [mine, held.1, held.2, ih, Nat.add_comm]
        · rw [if_pos mine, List.map_cons, List.sum_cons, if_neg held, Nat.zero_add, ih, if_neg]
          simpa [mine] using held
      · simp only [mine, Bool.and_false, Bool.false_and, Bool.false_eq_true, if_false, ih]
  exact counts allVoices

/-! ### The records of a channel taken from its queue -/

theorem removeRecord_others {c : Fin 4} {n : Nat} : ∃ q,
    (removeRecord c n s).ch c = { s.ch c with queue := q } := by
  obtain missing | ⟨r, hr⟩ := Option.eq_none_or_eq_some (s.record c n)
  · exact ⟨(s.ch c).queue, by rw [removeRecord, missing]⟩
  · exact ⟨_, by rw [removeRecord_ch hr, if_pos rfl]⟩

theorem removeRecords_beside (c : Fin 4) (l : List Nat) (s : State) : ∃ q,
    (l.foldl (fun t n => removeRecord c n t) s).ch c = { s.ch c with queue := q } := by
  induction l generalizing s with
  | nil => exact ⟨(s.ch c).queue, rfl⟩
  | cons n l ih =>
    obtain ⟨q, hq⟩ := removeRecord_others (s := s) (c := c) (n := n)
    obtain ⟨p, hp⟩ := ih (removeRecord c n s)
    exact ⟨p, by rw [List.foldl_cons, hp, hq]⟩

theorem removeAllRecords_beside (c : Fin 4) (s : State) : ∃ q,
    (removeAllRecords c s).ch c = { s.ch c with queue := q } := removeRecords_beside c _ s

theorem removeAllRecords_keeps {α : Type} (g : State → α)
    (h : ∀ n t, g (removeRecord c n t) = g t) (s : State) : g (removeAllRecords c s) = g s := by
  unfold removeAllRecords
  generalize (s.ch c).queue.map (fun r => r.number) = l
  induction l generalizing s with
  | nil => rfl
  | cons n l ih => rw [List.foldl_cons, ih, h]

theorem removeAllRecords_voice (c : Fin 4) (s : State) (v : Fin 16) :
    (removeAllRecords c s).voice v = s.voice v :=
  removeAllRecords_keeps (State.voice · v) (fun n t => removeRecord_voice c n t v) s

theorem removeAllRecords_asrun (c : Fin 4) (s : State) :
    (removeAllRecords c s).asrun = s.asrun :=
  removeAllRecords_keeps State.asrun (fun n t => removeRecord_asrun c n t) s

/-- The first record of a queue that leaves it leaves the rest, when no other has its number. -/
theorem filter_number_ne {r : BreakRecord} {l : List BreakRecord}
    (h : r.number ∉ l.map fun q => q.number) :
    ((r :: l).filter fun q => q.number != r.number) = l := by
  rw [List.filter_cons_of_neg (by simp)]
  refine List.filter_eq_self.2 fun q hq => ?_
  simpa using fun same => h (List.mem_map.2 ⟨q, hq, same⟩)

/-- With distinct numbers, every hold of the queue's records goes back. -/
theorem removeRecords_returned (c : Fin 4) {l : List BreakRecord} (hf : s.formed)
    (hq : (s.ch c).queue = l) (distinct : (l.map fun r => r.number).Nodup) :
    s.Returned (fun n => (l.map fun r => r.clips.count n).sum)
      ((l.map fun r => r.number).foldl (fun t n => removeRecord c n t) s) := by
  induction l generalizing s with
  | nil => exact State.returned_none hf
  | cons r l ih =>
    obtain ⟨fresh, distinct⟩ := List.nodup_cons.1 distinct
    have first : s.record c r.number = some r := by
      rw [State.record, hq, List.find?_cons_of_pos (by simp)]
    have returned := removeRecord_returned hf first
    refine returned.trans (ih returned.1 ?_ distinct)
    rw [removeRecord_ch first, if_pos rfl]
    exact (congrArg _ hq).trans (filter_number_ne fresh)

theorem removeAllRecords_returned (c : Fin 4) (hf : s.formed)
    (distinct : ((s.ch c).queue.map fun r => r.number).Nodup) :
    s.Returned (fun n => ((s.ch c).queue.map fun r => r.clips.count n).sum) (removeAllRecords c s) :=
  removeRecords_returned c hf rfl distinct

/-! ### The channel at rest -/

/-- Channel x at rest (R84). -/
def Channel.rested (x : Channel) : Channel :=
  { x with
    state := if x.config.enable then .network else .halted
    origin := none, returning := false, breakClear := false, emClear := false
    gain := 3840, gainTarget := 3840, gainRate := 1, duck := 0, carts := [], queue := []
    monitor := { Monitor.powerOn with refusals := x.monitor.refusals } }

/-- What a reset of channel c does before the channel is put to rest: the records of its airings, its
break records removed, its voices given back. -/
def resetWork (c : Fin 4) (s : State) : State :=
  releaseChannelVoices c (removeAllRecords c (asrunWriteAll (resetRows c s) s))

/-- Channel c put to rest, but for its state. -/
def putToRest (c : Fin 4) (t : State) : State := clearSilence c (t.setCh c (restChannel (t.ch c)))

theorem resetChannel_eq (c : Fin 4) (s : State) : resetChannel c s = setChannelState c
    (if ((putToRest c (resetWork c s)).ch c).config.enable then .network else .halted)
      (putToRest c (resetWork c s)) := by
  unfold resetChannel putToRest resetWork
  dsimp only

theorem clearSilence_ch (c : Fin 4) (s : State) : (clearSilence c s).ch c = { s.ch c with
    monitor := { (s.ch c).monitor with silentCount := 0, silence := false, limitReached := false } } := by
  unfold clearSilence
  dsimp only
  split
  · rw [raiseAlert_ch, setMonitor_ch]
    rfl
  · exact setMonitor_ch c _ s

theorem putToRest_ch (c : Fin 4) (t : State) :
    (putToRest c t).ch c = { (t.ch c).rested with state := (t.ch c).state } := by
  rw [putToRest, clearSilence_ch, State.ch_setCh_same]
  rfl

theorem resetWork_ch (c : Fin 4) (s : State) : ∃ q,
    (resetWork c s).ch c = { s.ch c with queue := q } := by
  obtain ⟨q, hq⟩ := removeAllRecords_beside c (asrunWriteAll (resetRows c s) s)
  exact ⟨q, by rw [resetWork, releaseChannelVoices_ch, hq, asrunWriteAll_ch]⟩

theorem resetChannel_ch (c : Fin 4) (s : State) :
    (resetChannel c s).ch c = (s.ch c).rested := by
  obtain ⟨q, work⟩ := resetWork_ch c s
  rw [resetChannel_eq, setChannelState_ch, putToRest_ch, work]
  rfl

theorem resetChannel_other {c d : Fin 4} (hd : d ≠ c) (s : State) :
    (resetChannel c s).ch d = s.ch d := (State.sameAround_of_eq resetChannel_around).ch d hd

theorem resetChannel_voice (c : Fin 4) (s : State) (v : Fin 16) :
    (resetChannel c s).voice v = (resetWork c s).voice v := by
  rw [resetChannel_eq, setChannelState_voice, putToRest, clearSilence_voice, State.setCh_voice]

theorem resetChannel_asrun (c : Fin 4) (s : State) :
    (resetChannel c s).asrun = (asrunWriteAll (resetRecords s c) s).asrun := by
  rw [resetChannel_eq, setChannelState_asrun, putToRest, clearSilence_asrun, State.setCh_asrun,
    resetWork, releaseChannelVoices_asrun, removeAllRecords_asrun, resetRows_eq]

theorem resetChannel_owned {c : Fin 4} {v : Fin 16}
    (h : (s.voice v).owner.any (fun o => o.channel == c) = true) :
    ((resetChannel c s).voice v).state = .free := by
  rw [resetChannel_voice]
  refine releaseChannelVoices_owned ?_
  rwa [removeAllRecords_voice, asrunWriteAll_voice]

theorem resetChannel_notOwned {c : Fin 4} {v : Fin 16}
    (h : (s.voice v).owner.any (fun o => o.channel == c) = false) :
    (resetChannel c s).voice v = s.voice v := by
  rw [resetChannel_voice, resetWork, releaseChannelVoices_other, removeAllRecords_voice,
    asrunWriteAll_voice]
  rwa [removeAllRecords_voice, asrunWriteAll_voice]

theorem voiceHolds_of_voice {t : State} (h : ∀ v, t.voice v = s.voice v) (c : Fin 4) (n : Nat) :
    t.voiceHolds (t.voicesOf c) n = s.voiceHolds (s.voicesOf c) n := by
  rw [voiceHolds_voicesOf, voiceHolds_voicesOf]
  simp only [h]

theorem releaseChannelVoices_returned (hf : s.formed) (c : Fin 4) :
    s.Returned (s.voiceHolds (s.voicesOf c)) (releaseChannelVoices c s) := by
  rw [releaseChannelVoices_eq]
  exact releaseVoices_returned hf (allVoices_nodup.filter _)

/-- The holds of the channel's records and voices go back. -/
theorem resetChannel_returned {c : Fin 4} (hf : s.formed)
    (distinct : ((s.ch c).queue.map fun r => r.number).Nodup) :
    s.Returned (channelReferences s c) (resetChannel c s) := by
  have written : s.Returned (fun _ => 0) (asrunWriteAll (resetRows c s) s) :=
    (State.returned_none hf).of_eq (asrunWriteAll_memory ..) (asrunWriteAll_store ..)
  have emptied := removeAllRecords_returned c written.1 (by rw [asrunWriteAll_ch]; exact distinct)
  have freed := written.trans (emptied.trans (releaseChannelVoices_returned emptied.1 c))
  have voices : ∀ v, (removeAllRecords c (asrunWriteAll (resetRows c s) s)).voice v = s.voice v :=
    fun v => (removeAllRecords_voice c _ v).trans (asrunWriteAll_voice _ s v)
  have work : s.Returned (channelReferences s c) (resetWork c s) := by
    rw [resetWork]
    refine ⟨freed.1, fun n => (freed.2 n).trans (congrArg (s.entry n).less ?_)⟩
    dsimp only
    rw [voiceHolds_of_voice voices, voiceHolds_voicesOf, asrunWriteAll_ch, channelReferences,
      Nat.zero_add]
  rw [resetChannel_eq]
  refine work.of_eq ?_ ?_
  · refine (State.sameAround_of_eq (c := c) ?_).memory
    rw [setChannelState_around, putToRest, clearSilence_around, State.setCh_around]
  · rw [setChannelState_store, putToRest, clearSilence_store, State.setCh_store]

/-! ### CHANNEL_RESET -/

theorem exec_channelReset (s : State) :
    exec .channelReset s = runRow (hasCode 0x11) false (sized 1 channelReset) s := rfl

theorem channelReset_val (c : Fin 4) (l : List Byte) (s : State) :
    channelReset (BitVec.ofNat 8 c.val :: l) s = accept (resetChannel c s) := by
  rw [channelReset, byteAt_channel, channelOf_val]

theorem answers_channelReset {src : Byte} {h : CmdHeader} {c : Fin 4} {rest : List Command}
    (hready : ready s src h [BitVec.ofNat 8 c.val] rest) (hcode : h.code = 0x11) :
    answers .channelReset s src h (.done false false []) (resetChannel c (taken s rest)) :=
  answers_of_work (exec_channelReset s) hready hcode rfl (channelReset_val c [] _)

/-- A reset changes nothing of the link, the clock, the contact lines and clip memory. -/
theorem resetChannel_rest (c : Fin 4) (rest : List Command) :
    let t := resetChannel c (taken s rest)
    t.clock = s.clock ∧ t.memory = s.memory ∧ t.tx = s.tx ∧ t.rx = s.rx ∧ t.lane = s.lane
      ∧ t.gpi = s.gpi ∧ t.gpo = s.gpo ∧ t.cmd = { s.cmd with queue := rest } := by
  have same := State.sameAround_of_eq (resetChannel_around (c := c) (s := taken s rest))
  exact ⟨same.clock, same.memory, same.tx, same.rx, same.lane, same.gpi, same.gpo, same.cmd⟩

theorem channelReset_restsTheChannel : Claim.channelResetRestsTheChannel := by
  intro s src h c rest hready hcode flight carts em
  obtain ⟨clock, memory, tx, rx, lane, gpi, gpo, cmd⟩ := resetChannel_rest (s := s) c rest
  have nothing : (resetChannel c (taken s rest)).asrun = s.asrun := by
    rw [resetChannel_asrun, resetRecords_nil (s := taken s rest) flight carts em]
    rfl
  exact ⟨_, answers_channelReset hready hcode, resetChannel_ch c _,
    fun d hd => resetChannel_other hd _, fun v hv => resetChannel_owned (s := taken s rest) hv,
    fun v hv => resetChannel_notOwned (s := taken s rest) hv, nothing, clock, memory, tx, rx, lane,
    gpi, gpo, cmd⟩

theorem channelReset_recordsTheWork : Claim.channelResetRecordsTheWork := by
  intro s src h c rest hready hcode formed distinct room
  obtain ⟨clock, memory, tx, rx, lane, gpi, gpo, cmd⟩ := resetChannel_rest (s := s) c rest
  have records : (resetChannel c (taken s rest)).asrun =
      ⟨s.asrun.records ++ resetRecords s c, s.asrun.lost⟩ :=
    (resetChannel_asrun c _).trans (asrunWriteAll_room (s := taken s rest) room)
  have returned := resetChannel_returned (s := taken s rest) formed distinct
  exact ⟨_, answers_channelReset hready hcode, records, resetChannel_ch c _,
    fun d hd => resetChannel_other hd _, fun v hv => resetChannel_owned (s := taken s rest) hv,
    fun v hv => resetChannel_notOwned (s := taken s rest) hv, returned.2, clock, memory, tx, rx,
    lane, gpi, gpo, cmd⟩

/-- Settles O47. -/
theorem channelResetRestsTheChannel : Obligations.ChannelResetRestsTheChannel :=
  ⟨channelReset_restsTheChannel, channelReset_recordsTheWork⟩

end Sys2Proof.Machine
end

section
/-! PROOFS. What the visits of an OPEN or CLOSE cue leave: the link, the clock, clip memory, the store but
its directory, the settings, the command unit, and each channel's configuration; they hand records to the
as-run queue's end, and no voice in use is without an owner after them (R95, R96). -/

namespace Sys2Proof.Machine

/-- All that the visits of a cue leave as it is. -/
def State.bearing (s : State) :=
  ((s.rx, s.lane, s.tx, s.clock, s.memory, { s.store with directory := [] }, s.reserve),
    (s.gpi, s.gpo, { s.cmd with draws := 0 }, s.alert.mask, s.alert.dest),
    fun c => (s.ch c).config)

/-- Every voice in use has an owner. -/
def State.owned (s : State) : Prop := ∀ v : Fin 16, (s.voice v).state ≠ .free →
  (s.voice v).owner.isSome = true

/-- State s is what the visits of a cue can make of r. -/
structure State.Cued (r s : State) : Prop where
  bearing : s.bearing = r.bearing
  asrun : r.asrun.records <+: s.asrun.records
  owned : r.owned → s.owned

theorem State.Cued.refl (s : State) : s.Cued s := ⟨rfl, List.prefix_refl _, id⟩

variable {r s : State}

theorem cued_of_eq {t : State} (h : r.Cued s) (hb : t.bearing = s.bearing)
    (ha : t.asrun = s.asrun) (hv : t.voices = s.voices) : r.Cued t where
  bearing := hb.trans h.bearing
  asrun := by rw [ha]; exact h.asrun
  owned ho v := by
    have same := voice_of_voices hv v
    rw [same]
    exact h.owned ho v

theorem cued_setEvents (h : r.Cued s) (x : List VoiceEvent) : r.Cued (s.setEvents x) := { h with }
theorem cued_setCues (h : r.Cued s) (x : CueCounters) : r.Cued (s.setCues x) := { h with }
theorem cued_setForming (h : r.Cued s) (x : Forming) : r.Cued (s.setForming x) := { h with }
theorem cued_setEntry (h : r.Cued s) (n : Nat) (e : DirEntry) : r.Cued (s.setEntry n e) :=
  { h with }

theorem cued_setCh (h : r.Cued s) {c : Fin 4} {x : Channel} (hx : x.config = (s.ch c).config) :
    r.Cued (s.setCh c x) := by
  refine cued_of_eq h ?_ rfl rfl
  have configs : (fun d => ((s.setCh c x).ch d).config) = fun d => (s.ch d).config := by
    funext d
    rw [State.ch_setCh]
    split
    · next hd => rw [hx, hd]
    · rfl
  rw [State.bearing, configs]
  rfl

theorem cued_setMonitor (h : r.Cued s) (c : Fin 4) (m : Monitor) : r.Cued (s.setMonitor c m) :=
  cued_setCh h rfl

theorem cued_raiseAlert (h : r.Cued s) (src : AlertSource) : r.Cued (raiseAlert src s) := by
  refine cued_of_eq h ?_ (raiseAlert_asrun src s) (raiseAlert_voices src s)
  rw [raiseAlert_eq_after, alertAfter]
  dsimp only
  repeat' split
  all_goals rfl

theorem cued_asrunWrite (h : r.Cued s) (x : AsRunRecord) : r.Cued (asrunWrite x s) := by
  have kept : r.Cued (s.setAsrun { s.asrun with records := s.asrun.records ++ [x] }) :=
    { h with asrun := h.asrun.trans (List.prefix_append _ _) }
  unfold asrunWrite
  split
  · dsimp only
    split
    · exact kept
    · split
      · exact cued_raiseAlert kept _
      · exact kept
  · exact { h with }

/-- A voice that takes a value keeps every voice in use owned when the value is FREE, has an owner, or
keeps that of a voice in use. -/
theorem cued_setVoice (h : r.Cued s) (v : Fin 16) {x : Voice}
    (hx : x.state ≠ .free →
      x.owner.isSome = true ∨ (s.voice v).state ≠ .free ∧ x.owner = (s.voice v).owner) :
    r.Cued (s.setVoice v x) :=
  { h with
    owned := fun ho w used => by
      have all := h.owned ho
      rw [State.voice_setVoice] at used ⊢
      split at used
      · next hw =>
        rw [if_pos hw]
        obtain given | ⟨was, same⟩ := hx used
        · exact given
        · rw [same]
          exact all v was
      · next hw =>
        rw [if_neg hw]
        exact all w used }

theorem cued_foldl {β : Type} {f : State → β → State}
    (hf : ∀ (t : State) (b : β), r.Cued t → r.Cued (f t b)) (l : List β) (h : r.Cued s) :
    r.Cued (l.foldl f s) := by
  induction l generalizing s with
  | nil => exact h
  | cons b l ih => exact ih (hf s b h)

theorem cued_forChannels {f : Fin 4 → State → State}
    (hf : ∀ (c : Fin 4) (t : State), r.Cued t → r.Cued (f c t)) (h : r.Cued s) :
    r.Cued (forChannels f s) :=
  cued_foldl (fun t c => hf c t) _ h

theorem cued_asrunWriteAll (h : r.Cued s) (l : List AsRunRecord) : r.Cued (asrunWriteAll l s) :=
  cued_foldl (fun _ x ht => cued_asrunWrite ht x) l h

theorem cued_drawFree (h : r.Cued s) : r.Cued (drawFree s) := { h with }

theorem cued_holdClip {n : Nat} {t : State} (h : r.Cued s) (ht : holdClip n s = some t) :
    r.Cued t := by
  grind [holdClip, cued_setEntry]

theorem cued_releaseHold (h : r.Cued s) (n : Nat) : r.Cued (releaseHold n s) :=
  cued_setEntry h ..

theorem cued_claimBreak {c : Fin 4} {t : State} {a b : Fin 16} (h : r.Cued s)
    (ht : claimBreak c s = some (a, b, t)) : r.Cued t := by
  grind [claimBreak, cued_setVoice]

theorem cued_raiseEvent (h : r.Cued s) (k : EventKind) (v : Fin 16) (a : AC) :
    r.Cued (raiseEvent k v a s) :=
  cued_setEvents h _

theorem cued_releaseVoice (h : r.Cued s) (v : Fin 16) : r.Cued (releaseVoice v s) := by
  have freed (t : State) (ht : r.Cued t) : r.Cued (t.setVoice v .freed) :=
    cued_setVoice ht v fun used => absurd rfl used
  grind [releaseVoice, cued_releaseHold, cued_setEvents]

theorem cued_primeHold {x : Voice} {clip : Nat} {t : State} (h : r.Cued s)
    (ht : primeHold x clip s = some t) : r.Cued t ∧ t.voices = s.voices := by
  grind [primeHold, cued_holdClip, cued_releaseHold, holdClip, State.setEntry_voices, releaseHold]

theorem cued_primeVoice (h : r.Cued s) (v : Fin 16) (q : PrimeReq) :
    r.Cued (primeVoice v q s).2 := by
  unfold primeVoice
  dsimp only
  split
  · exact h
  · next able =>
    split
    · exact h
    · next t ht =>
      obtain ⟨held, voices⟩ := cued_primeHold h ht
      have same := voice_of_voices voices v
      refine cued_setVoice held v fun _ => .inr ⟨?_, ?_⟩
      · rw [same]
        intro free
        exact able (.inl (by rw [free]; decide))
      · rw [same]

theorem cued_stopVoice (h : r.Cued s) (k : EventKind) {v : Fin 16} (a : AC)
    (used : (s.voice v).state ≠ .free) : r.Cued (stopVoice k v a s) :=
  cued_raiseEvent (cued_setVoice h v (x := { s.voice v with
    state := .reserved, startFrame := none, ramp := none, staged := none })
      fun _ => .inr ⟨used, rfl⟩) k v a

theorem cued_fadeToZero (h : r.Cued s) (v : Fin 16) (j : Nat) : r.Cued (fadeToZero v j s).2 := by
  grind [fadeToZero, cued_stopVoice, cued_setVoice]

theorem cued_rampVoice (h : r.Cued s) (v : Fin 16) (t p i : Nat) (b : Bool) :
    r.Cued (rampVoice v t p i b s).2 := by
  grind [rampVoice, cued_setVoice]

theorem cued_cancelVoice (h : r.Cued s) (v : Fin 16) : r.Cued (cancelVoice v s).2 := by
  grind [cancelVoice, cued_setVoice, cued_fadeToZero]

theorem cued_startVoice (h : r.Cued s) {v : Fin 16} (due : s.startDue v = true) :
    r.Cued (startVoice v s) := by
  refine cued_raiseEvent (cued_setVoice h v (x := { s.voice v with
    state := .playing, startAC := some s.nextAC }) fun _ => .inr ⟨?_, rfl⟩) ..
  intro free
  simp [State.startDue, free] at due

theorem atBoundary_owner (x : Voice) (a : AC) :
    (x.atBoundary a).1.owner = x.owner ∧ (x.atBoundary a).1.state = x.state := by
  have staged : x.applyStaged.owner = x.owner ∧ x.applyStaged.state = x.state := by
    unfold Voice.applyStaged
    repeat' split
    all_goals exact ⟨rfl, rfl⟩
  unfold Voice.atBoundary
  split
  · dsimp only
    split
    · exact staged
    · split
      · exact staged
      · exact staged
  · exact ⟨rfl, rfl⟩

theorem advance_owner (x : Voice) (n : Nat) :
    (x.advance n).owner = x.owner ∧ (x.advance n).state = x.state := by
  unfold Voice.advance
  dsimp only
  repeat' split
  all_goals exact ⟨rfl, rfl⟩

theorem cued_playVoice (h : r.Cued s) {v : Fin 16} (playing : (s.voice v).state = .playing) :
    r.Cued (playVoice v s) := by
  obtain ⟨owner, state⟩ := atBoundary_owner (s.voice v) s.nextAC
  have used : (s.voice v).state ≠ .free := by rw [playing]; decide
  have moved := cued_setVoice h v (x := ((s.voice v).atBoundary s.nextAC).1)
    fun _ => .inr ⟨used, owner⟩
  have still : ∀ t : State, t.voice v = ((s.voice v).atBoundary s.nextAC).1 →
      (t.voice v).state ≠ .free := fun t ht => by rw [ht, state]; exact used
  unfold playVoice
  dsimp only
  split
  · exact cued_stopVoice moved .faded _ (still _ (State.voice_setVoice_same ..))
  · split
    · exact cued_stopVoice moved .ended _ (still _ (State.voice_setVoice_same ..))
    · refine cued_setVoice (cued_setForming moved _) v fun _ => .inr ⟨?_, ?_⟩
      · exact still _ (State.voice_setVoice_same ..)
      · rw [(advance_owner _ _).1]
        exact (congrArg Voice.owner (State.voice_setVoice_same ..)).symm

theorem cued_handleVoice (h : r.Cued s) (v : Fin 16) : r.Cued (handleVoice v s) := by
  grind [handleVoice, cued_startVoice, cued_playVoice]

theorem cued_handleThrough (h : r.Cued s) (n : Nat) : r.Cued (handleThrough n s) :=
  cued_foldl (by grind [cued_handleVoice, cued_setForming]) _ h

theorem cued_startThrough (h : r.Cued s) (v : Fin 16) : r.Cued (startThrough v s) := by
  grind [startThrough, cued_handleThrough, cued_startVoice]

theorem cued_setChannelState (h : r.Cued s) (c : Fin 4) (x : ChannelState) :
    r.Cued (setChannelState c x s) := by
  grind [setChannelState, cued_setCh, cued_raiseAlert]

theorem cued_fadeGain (h : r.Cued s) (c : Fin 4) (l j : Nat) : r.Cued (fadeGain c l j s) :=
  cued_setCh h rfl

theorem cued_requestPreroll (h : r.Cued s) (c : Fin 4) : r.Cued (requestPreroll c s).2 := by
  grind [requestPreroll, cued_setChannelState, cued_setCh]

theorem cued_finishReturn (h : r.Cued s) (c : Fin 4) : r.Cued (finishReturn c s) := by
  grind [finishReturn, cued_setChannelState, cued_setCh]

theorem cued_requestWithdraw (h : r.Cued s) (c : Fin 4) : r.Cued (requestWithdraw c s) := by
  grind [requestWithdraw, cued_setChannelState, cued_setCh, cued_finishReturn]

theorem cued_requestOpen (h : r.Cued s) (c : Fin 4) (l : Nat) : r.Cued (requestOpen c l s).2 := by
  grind [requestOpen, cued_setChannelState, cued_setCh, cued_fadeGain]

theorem cued_requestJoin (h : r.Cued s) (c : Fin 4) : r.Cued (requestJoin c s) := by
  grind [requestJoin, cued_setChannelState, cued_setCh, cued_fadeGain]

theorem cued_takeOver (h : r.Cued s) (c : Fin 4) : r.Cued (takeOver c s) := by
  grind [takeOver, cued_fadeToZero, cued_setMonitor]

theorem cued_modRecord (h : r.Cued s) (c : Fin 4) (n : Nat) (f : BreakRecord → BreakRecord) :
    r.Cued (modRecord c n f s) :=
  cued_setCh h rfl

theorem cued_modParts (h : r.Cued s) (c : Fin 4) (n : Nat) (f : Part → Part) :
    r.Cued (modParts c n f s) :=
  cued_modRecord h ..

theorem cued_releaseHolds (h : r.Cued s) (l : List Nat) : r.Cued (releaseHolds l s) :=
  cued_foldl (fun _ n ht => cued_releaseHold ht n) l h

theorem cued_removeRecord (h : r.Cued s) (c : Fin 4) (n : Nat) : r.Cued (removeRecord c n s) := by
  unfold removeRecord
  split
  · exact h
  · exact cued_setCh (cued_releaseHolds h _) rfl

theorem cued_primeNext (h : r.Cued s) (c : Fin 4) (n : Nat) (v : Fin 16) :
    r.Cued (primeNext c n v s) := by
  unfold primeNext
  repeat' split
  all_goals grind [cued_primeVoice, cued_modParts]

theorem cued_triggerFill (h : r.Cued s) (c : Fin 4) (n : Nat) : r.Cued (triggerFill c n s) := by
  unfold triggerFill
  repeat' split
  all_goals grind [cued_holdClip, cued_modRecord]

theorem cued_endEmptyPlan (h : r.Cued s) (c : Fin 4) (x : BreakRecord) (p : Plan) :
    r.Cued (endEmptyPlan c x p s) :=
  cued_removeRecord (cued_asrunWriteAll h _) ..

theorem cued_endRefusedClaim (h : r.Cued s) (c : Fin 4) (x : BreakRecord) (p : Plan) :
    r.Cued (endRefusedClaim c x p s) :=
  cued_removeRecord (cued_raiseAlert (cued_asrunWriteAll h _) _) ..

theorem cued_startBreak (h : r.Cued s) (c : Fin 4) (n : Nat) (p : Plan) (v : Fin 16 × Fin 16) :
    r.Cued (startBreak c n p v s) :=
  cued_primeNext (cued_primeNext (cued_requestPreroll (cued_modRecord h ..) c) ..) ..

theorem cued_acceptTrigger (h : r.Cued s) (c : Fin 4) (n : Nat) (start : AC)
    (deadline : Option AC) (late : Bool) :
    r.Cued (acceptTrigger c n start deadline late s).2 := by
  unfold acceptTrigger
  have taken := cued_modRecord (cued_triggerFill (cued_modRecord h c n fun x =>
    { x with start := some start, deadline := deadline }) c n) c n fun x =>
    { x with state := .preroll }
  dsimp only
  repeat' split
  all_goals grind [cued_endEmptyPlan, cued_endRefusedClaim, cued_claimBreak, cued_startBreak]

theorem cued_openBreak (h : r.Cued s) (c : Fin 4) : r.Cued (openBreak c s) := by
  grind [openBreak, cued_requestOpen, cued_modRecord, cued_takeOver]

theorem cued_openDueBreaks (h : r.Cued s) : r.Cued (openDueBreaks s) :=
  cued_forChannels (fun c _ ht => cued_openBreak ht c) h

theorem cued_releaseVoices (h : r.Cued s) (l : List (Fin 16)) : r.Cued (releaseVoices l s) :=
  cued_foldl (fun _ v ht => cued_releaseVoice ht v) l h

theorem cued_completeBreak (h : r.Cued s) (c : Fin 4) : r.Cued (completeBreak c s) := by
  grind [completeBreak, cued_removeRecord, cued_releaseVoices, cued_asrunWriteAll]

theorem cued_finishJoin (h : r.Cued s) (c : Fin 4) : r.Cued (finishJoin c s) := by
  grind [finishJoin, cued_completeBreak, cued_setChannelState]

theorem cued_requestBreakClear (h : r.Cued s) (c : Fin 4) : r.Cued (requestBreakClear c s) := by
  grind [requestBreakClear, cued_finishJoin, cued_setCh]

theorem cued_checkBreakClear (h : r.Cued s) (c : Fin 4) : r.Cued (checkBreakClear c s) := by
  grind [checkBreakClear, cued_requestBreakClear]

theorem cued_stopForJoin (h : r.Cued s) (c : Fin 4) (n : Nat) (v : Fin 16) :
    r.Cued (stopForJoin c n v s) := by
  grind [stopForJoin, markJoin, cued_fadeToZero, cued_modParts, cued_cancelVoice]

theorem cued_cancelStarted (h : r.Cued s) (c : Fin 4) (n : Nat) (v : Fin 16) :
    r.Cued (cancelStarted c n v s) := by
  grind [cancelStarted, markJoin, cued_modParts, cued_cancelVoice]

theorem cued_joinAround (h : r.Cued s) (o : Config.StartOrder) (c : Fin 4) (n : Nat)
    (v : Fin 16) : r.Cued (joinAround o c n v s) := by
  have opened := cued_openDueBreaks h
  cases o with
  | never => exact cued_stopForJoin h ..
  | first => exact cued_stopForJoin (cued_startThrough opened v) c n v
  | outputFirst => exact cued_stopForJoin (cued_handleThrough opened v.val) c n v
  | between => exact cued_cancelStarted (cued_startThrough opened v) c n v
  | outputBetween => exact cued_cancelStarted (cued_handleThrough opened v.val) c n v

theorem cued_joinVoice (h : r.Cued s) (c : Fin 4) (n : Nat) (v : Fin 16) :
    r.Cued (joinVoice c n v s) := by
  unfold joinVoice
  split
  · exact cued_joinAround (cued_drawFree h) ..
  · exact cued_stopForJoin h ..

theorem cued_joinBreak (h : r.Cued s) (c : Fin 4) : r.Cued (joinBreak c s) := by
  unfold joinBreak
  split
  · exact h
  · next x _ =>
    split
    · exact h
    · have joining := cued_foldl (fun t v ht => cued_joinVoice ht c x.number v) x.voices
        (cued_requestJoin (cued_modRecord h c x.number fun x => { x with state := .joining }) c)
      exact cued_checkBreakClear (cued_modParts joining ..) c

theorem cued_withdrawBreak (h : r.Cued s) (c : Fin 4) (x : Cause) :
    r.Cued (withdrawBreak c x s) := by
  unfold withdrawBreak
  split
  · exact h
  · exact cued_removeRecord (cued_requestWithdraw (cued_releaseVoices (cued_foldl
      (by grind [cued_cancelVoice]) _ (cued_asrunWriteAll h _)) _) c) ..

theorem cued_closeBreak (h : r.Cued s) (c : Fin 4) (m : AC) : r.Cued (closeBreak c m s) := by
  grind [closeBreak, moveReturn, cued_withdrawBreak, cued_modRecord, cued_joinBreak]

theorem cued_modCues (h : r.Cued s) (f : CueCounters → CueCounters) : r.Cued (modCues f s) :=
  cued_setCues h _

theorem cued_openChannel (h : r.Cued s) (ref : AC) (key offset window : Nat) (c : Fin 4) :
    r.Cued (openChannel ref key offset window c s) := by
  grind [openChannel, unmatchedCue, refusedCue, cued_modCues, cued_raiseAlert,
    cued_acceptTrigger]

theorem cued_closeChannel (h : r.Cued s) (m : AC) (key : Nat) (c : Fin 4) :
    r.Cued (closeChannel m key c s) := by
  grind [closeChannel, unmatchedCue, cued_modCues, cued_raiseAlert, cued_closeBreak]

theorem cued_visitAll {f : Visit} (hf : ∀ (c : Fin 4) (t : State), r.Cued t → r.Cued (f c t))
    (l : List (Fin 4)) (h : r.Cued s) : r.Cued (visitAll f l s) :=
  cued_foldl (fun t c => hf c t) l h

theorem cued_openVisits {p : List Byte} {ref : AC} {l : List (Fin 4)} {f : Visit}
    (hf : openVisits p ref = some (l, f)) (c : Fin 4) (t : State) (h : r.Cued t) :
    r.Cued (f c t) := by
  unfold openVisits at hf
  dsimp only at hf
  split at hf
  · cases hf
  · cases hf
    exact cued_openChannel h ..

theorem cued_closeVisits {p : List Byte} {ref : AC} {l : List (Fin 4)} {f : Visit}
    (hf : closeVisits p ref = some (l, f)) (c : Fin 4) (t : State) (h : r.Cued t) :
    r.Cued (f c t) := by
  unfold closeVisits at hf
  dsimp only at hf
  split at hf
  · cases hf
  · cases hf
    exact cued_closeChannel h ..

end Sys2Proof.Machine
end

section
/-! PROOFS. DEVICE_RESET: what it clears and keeps, with and without a cue being decoded (R40, R86, R101,
R188). -/

namespace Sys2Proof.Machine

open Claim

variable {r s t : State}

/-! ### The alert unit through a reset -/

/-- What reports other than LOCK make of an alert unit that has nothing pending: nothing, or a new ALERT
with the next number (R192). -/
def AlertUnit.Restarted (base a : AlertUnit) : Prop :=
  a = base ∨ a.pending = true ∧ base.mask ≠ 0 ∧ a.mask = base.mask ∧ a.dest = base.dest
    ∧ a.number = (base.number + 1) % 256 ∧ a.lockCount = 0
    ∧ ∃ m, a.ready = some m ∧ m.number = a.number ∧ m.lockCount = 0

/-- An alert unit after steps 2 to 4 of R188. -/
structure AlertUnit.Cleared (base : AlertUnit) : Prop where
  pending : base.pending = false
  lockCount : base.lockCount = 0
  ready : base.ready = none

variable {base a : AlertUnit}

theorem AlertUnit.Restarted.lockCount (hb : base.Cleared) (h : base.Restarted a) :
    a.lockCount = 0 := by
  obtain rfl | ⟨-, -, -, -, -, lock, -⟩ := h
  · exact hb.lockCount
  · exact lock

theorem AlertUnit.Restarted.addressed (h : base.Restarted a) :
    a.mask = base.mask ∧ a.dest = base.dest := by
  obtain rfl | ⟨-, -, mask, dest, -⟩ := h
  · exact ⟨rfl, rfl⟩
  · exact ⟨mask, dest⟩

theorem restarted_alertAfter (hb : base.Cleared) (h : base.Restarted a) {src : AlertSource}
    (hs : src ≠ .lock) (addr : Byte) (snapshot : BitVec 32) (ac : AC) :
    base.Restarted (alertAfter src a addr snapshot ac) := by
  by_cases masked : a.mask &&& src.mask = 0
  · rw [alertAfter, if_pos masked]
    exact h
  · rw [alertAfter, if_neg masked, if_neg hs]
    obtain rfl | ⟨pending, mask, same, dest, number, lock, ready⟩ := h
    · rw [if_neg (by rw [hb.pending]; decide)]
      refine .inr ⟨rfl, ?_, rfl, rfl, rfl, rfl, _, rfl, rfl, ?_⟩
      · intro zero
        rw [zero] at masked
        exact masked (BitVec.zero_and ..)
      · simp only [readyAfter, hb.lockCount, hb.ready, Option.map_none, Option.getD_none,
          Nat.add_zero, Nat.zero_min]
    · rw [if_pos pending]
      exact .inr ⟨pending, mask, same, dest, number, lock, ready⟩

theorem restarted_raiseAlert (hb : base.Cleared) (h : base.Restarted s.alert) {src : AlertSource}
    (hs : src ≠ .lock) : base.Restarted (raiseAlert src s).alert := by
  rw [raiseAlert_eq_after]
  exact restarted_alertAfter hb h hs ..

theorem restarted_asrunWrite (hb : base.Cleared) (h : base.Restarted s.alert) (x : AsRunRecord) :
    base.Restarted (asrunWrite x s).alert := by
  unfold asrunWrite
  split
  · dsimp only
    split
    · exact h
    · split
      · exact restarted_raiseAlert hb (by exact h) (by simp)
      · exact h
  · exact h

theorem restarted_asrunWriteAll (hb : base.Cleared) (l : List AsRunRecord)
    (h : base.Restarted s.alert) : base.Restarted (asrunWriteAll l s).alert := by
  induction l generalizing s with
  | nil => exact h
  | cons x l ih => exact ih (restarted_asrunWrite hb h x)

theorem removeAllRecords_alert (c : Fin 4) (s : State) : (removeAllRecords c s).alert = s.alert := by
  refine removeAllRecords_keeps State.alert (fun n t => ?_) s
  unfold removeRecord
  split
  · rfl
  · exact releaseHolds_alert _ _

theorem restarted_clearSilence (hb : base.Cleared) (c : Fin 4) (h : base.Restarted s.alert) :
    base.Restarted (clearSilence c s).alert := by
  unfold clearSilence
  dsimp only
  split
  · exact restarted_raiseAlert hb (by exact h) (by simp)
  · exact h

theorem restarted_setChannelState (hb : base.Cleared) (c : Fin 4) (new : ChannelState)
    (h : base.Restarted s.alert) : base.Restarted (setChannelState c new s).alert := by
  unfold setChannelState
  dsimp only
  split
  · exact h
  · exact restarted_raiseAlert hb (by exact h) (by simp)

theorem restarted_resetChannel (hb : base.Cleared) (c : Fin 4) (h : base.Restarted s.alert) :
    base.Restarted (resetChannel c s).alert := by
  have worked : base.Restarted (resetWork c s).alert := by
    rw [resetWork, releaseChannelVoices_alert, removeAllRecords_alert]
    exact restarted_asrunWriteAll hb _ h
  rw [resetChannel_eq]
  refine restarted_setChannelState hb c _ ?_
  rw [putToRest]
  refine restarted_clearSilence hb c ?_
  rw [State.setCh_alert]
  exact worked

theorem restarted_unmatchedCue (hb : base.Cleared) (h : base.Restarted s.alert) :
    base.Restarted (unmatchedCue s).alert :=
  restarted_raiseAlert (s := modCues _ s) (src := .cueUnmatched) hb h (by simp)

/-! ### The four channels reset -/

/-- Every channel reset. -/
def resetAll (s : State) : State := forChannels resetChannel s

/-- What the resets of the channels leave. -/
def State.besideWork (s : State) :=
  ((s.rx, s.lane, s.tx, s.clock, s.cues, s.memory, { s.store with directory := [] }),
    (s.reserve, s.gpi, s.gpo, s.cmd, s.forming, s.pending))

theorem besideWork_of_around {c : Fin 4} (h : t.around c = s.around c) :
    t.besideWork = s.besideWork := by
  have same := State.sameAround_of_eq h
  simp only [State.besideWork, same.rx, same.lane, same.tx, same.clock, same.cues, same.memory,
    same.store, same.reserve, same.gpi, same.gpo, same.cmd, same.forming, same.pending]

theorem resetAll_besideWork (s : State) : (resetAll s).besideWork = s.besideWork :=
  forChannels_keeps State.besideWork _ (fun _ _ => besideWork_of_around resetChannel_around) s

theorem resetAll_ch (s : State) (c : Fin 4) : (resetAll s).ch c = (s.ch c).rested := by
  refine forChannels_ch (g := fun _ => Channel.rested) (fun d e u => ?_) s c
  split
  · next he => rw [he, resetChannel_ch]
  · next he => rw [resetChannel_other he]

theorem releaseChannelVoices_voice (c : Fin 4) (s : State) (v : Fin 16) :
    (releaseChannelVoices c s).voice v = Voice.freed ∨
      (releaseChannelVoices c s).voice v = s.voice v := by
  rw [releaseChannelVoices_eq, releaseVoices_voice]
  split
  · exact .inl rfl
  · exact .inr rfl

theorem resetChannel_voice_cases (c : Fin 4) (s : State) (v : Fin 16) :
    (resetChannel c s).voice v = Voice.freed ∨ (resetChannel c s).voice v = s.voice v := by
  obtain freed | same := releaseChannelVoices_voice c
    (removeAllRecords c (asrunWriteAll (resetRows c s) s)) v
  · exact .inl ((resetChannel_voice c s v).trans freed)
  · refine .inr ((resetChannel_voice c s v).trans (same.trans ?_))
    rw [removeAllRecords_voice, asrunWriteAll_voice]

/-- A channel owns no voice in use. -/
def State.ownsNone (c : Fin 4) (s : State) : Prop := ∀ v : Fin 16, (s.voice v).state ≠ .free →
  (s.voice v).owner.any (fun o => o.channel == c) = false

theorem resetChannel_ownsNone (c : Fin 4) (s : State) : (resetChannel c s).ownsNone c := by
  intro v used
  by_contra mine
  obtain freed | same := resetChannel_voice_cases c s v
  · rw [freed] at used
    exact used rfl
  · rw [same] at mine
    exact used (resetChannel_owned (Bool.of_not_eq_false mine))

theorem State.ownsNone.resetChannel {c : Fin 4} (d : Fin 4) (h : s.ownsNone c) :
    (resetChannel d s).ownsNone c := by
  intro v used
  obtain freed | same := resetChannel_voice_cases d s v
  · rw [freed] at used
    exact absurd rfl used
  · rw [same] at used ⊢
    exact h v used

theorem resetAll_ownsNone (s : State) (c : Fin 4) : (resetAll s).ownsNone c :=
  forChannels_establishes (P := State.ownsNone) resetChannel_ownsNone
    (fun d _ _ _ h => h.resetChannel d) s c

theorem owned_resetChannel (c : Fin 4) (h : s.owned) : (resetChannel c s).owned := by
  intro v used
  obtain freed | same := resetChannel_voice_cases c s v
  · rw [freed] at used
    exact absurd rfl used
  · rw [same] at used ⊢
    exact h v used

/-- With every voice in use owned, all are FREE. -/
theorem resetAll_free (h : s.owned) (v : Fin 16) : ((resetAll s).voice v).state = .free := by
  have owned : (resetAll s).owned :=
    forChannels_invariant (P := State.owned) (fun c _ ht => owned_resetChannel c ht) h
  by_contra used
  obtain ⟨o, ho⟩ := Option.isSome_iff_exists.1 (owned v used)
  have notMine := resetAll_ownsNone s o.channel v used
  rw [ho] at notMine
  simp at notMine

theorem asrunWrite_prefix (x : AsRunRecord) (s : State) :
    s.asrun.records <+: (asrunWrite x s).asrun.records :=
  (cued_asrunWrite (State.Cued.refl s) x).asrun

theorem resetChannel_prefix (c : Fin 4) (s : State) :
    s.asrun.records <+: (resetChannel c s).asrun.records := by
  rw [resetChannel_asrun]
  exact (cued_asrunWriteAll (State.Cued.refl s) _).asrun

theorem resetAll_prefix (s : State) : s.asrun.records <+: (resetAll s).asrun.records := by
  unfold resetAll
  exact forChannels_invariant (P := fun t => s.asrun.records <+: t.asrun.records)
    (fun c u h => h.trans (resetChannel_prefix c u)) (List.prefix_refl _)

/-! ### The whole unit -/

theorem storeDeviceReset_eq (s : State) : ∃ d, storeDeviceReset s = s.setStore { s.store with
    directory := d, armList := [], engine := none, lastReport := .initial } := by
  unfold storeDeviceReset
  dsimp only
  generalize (List.map (fun a => a.clip) s.store.armList ++ _) = l
  obtain ⟨d, hd⟩ := emptyAll_store l s
  exact ⟨d, by rw [← emptyAll, hd]; rfl⟩

/-- The work of steps 2 to 4 and of the channels. -/
def resetWorked (s : State) : State := forChannels zeroChannelCounts (resetAll (resetCommandUnit s))

theorem resetUnit_eq (s : State) :
    resetUnit s = clearReportDrops (clearCueCounters (clearLinkCounters
      (storeDeviceReset (resetWorked s)))) := by
  unfold resetUnit resetBlocks resetWorked resetAll
  dsimp only

theorem resetWorked_besideWork (s : State) :
    (resetWorked s).besideWork = (resetCommandUnit s).besideWork := by
  have zeroed (c : Fin 4) (u : State) : (zeroChannelCounts c u).besideWork = u.besideWork :=
    besideWork_of_around (State.setCh_around c u _)
  rw [resetWorked, forChannels_keeps State.besideWork _ zeroed, resetAll_besideWork]

theorem resetWorked_ch (s : State) (c : Fin 4) :
    (resetWorked s).ch c = zeroedCounts (s.ch c).rested := by
  rw [resetWorked, forChannels_ch (g := fun _ => zeroedCounts) zeroChannelCounts_ch, resetAll_ch]
  rfl

theorem resetWorked_voice (s : State) (v : Fin 16) :
    (resetWorked s).voice v = (resetAll (resetCommandUnit s)).voice v := by
  rw [resetWorked, forChannels_keeps (State.voice · v) zeroChannelCounts fun _ _ => rfl]

theorem resetWorked_asrun (s : State) :
    (resetWorked s).asrun = (resetAll (resetCommandUnit s)).asrun := by
  rw [resetWorked, forChannels_keeps State.asrun zeroChannelCounts fun _ _ => rfl]

theorem resetWorked_alert (s : State) :
    (resetWorked s).alert = (resetAll (resetCommandUnit s)).alert := by
  rw [resetWorked, forChannels_keeps State.alert zeroChannelCounts fun _ _ => rfl]

/-- The alert unit of s after steps 2 to 4 of R188. -/
def State.clearedAlert (s : State) : AlertUnit :=
  { s.alert with pending := false, changed := 0, lockCount := 0, ready := none }

theorem clearedAlert_cleared (s : State) : s.clearedAlert.Cleared := ⟨rfl, rfl, rfl⟩

theorem resetWorked_restarted (s : State) :
    s.clearedAlert.Restarted (resetWorked s).alert := by
  rw [resetWorked_alert, resetAll]
  exact forChannels_invariant (P := fun t => s.clearedAlert.Restarted t.alert)
    (fun c _ h => restarted_resetChannel (clearedAlert_cleared s) c h) (.inl rfl)

/-- What DEVICE_RESET leaves, of s with the command taken: the links, the clock, the settings and clip
memory but for their counts, all channels at rest, every voice FREE. -/
structure State.Reset (s u : State) : Prop where
  rx : u.rx = { s.rx with syncMiss := 0, checkFail := 0, lockLoss := 0, syncSlip := false }
  lane : u.lane = { s.lane with
    stray := 0, headerError := 0, badCheck := 0, misdirected := 0, unknownKind := 0, broken := 0 }
  tx : u.tx = { s.tx with timingSlip := 0, fifoOverflow := 0 }
  clock : u.clock = s.clock
  memory : u.memory = s.memory
  store : u.store = { s.store with
    directory := u.store.directory, armList := [], engine := none, lastReport := .initial }
  reserve : u.reserve = s.reserve
  gpi : u.gpi = s.gpi
  gpo : u.gpo = s.gpo
  cmd : u.cmd = { s.cmd with
    queue := [], assembly := none, reportDrops := 0, inbox := u.cmd.inbox, draws := u.cmd.draws }
  channel : ∀ c, ∃ x : Channel, x.config = (s.ch c).config ∧ u.ch c = zeroedCounts x.rested
  voice : ∀ v, (u.voice v).state = .free
  asrun : s.asrun.records <+: u.asrun.records
  mask : u.alert.mask = s.alert.mask
  dest : u.alert.dest = s.alert.dest
  lockCount : u.alert.lockCount = 0

theorem storeKept {x y z : Store}
    (hx : { x with directory := [] } = { y with directory := [] })
    (hy : { y with directory := [] } = { z with directory := [] }) (d : List (Nat × DirEntry)) :
    { x with directory := d, armList := [], engine := none, lastReport := .initial } =
      { z with directory := d, armList := [], engine := none, lastReport := .initial } := by
  have same := hx.trans hy
  simp only [Store.mk.injEq] at same ⊢
  tauto

theorem commandsKept {w x y : CommandUnit} (hw : w = { x with queue := [], assembly := none })
    (h : { x with draws := 0 } = { y with draws := 0 }) : { w with reportDrops := 0 } =
      { y with queue := [], assembly := none, reportDrops := 0, inbox := w.inbox
               draws := w.draws } := by
  subst hw
  simp only [CommandUnit.mk.injEq] at h ⊢
  tauto

theorem resetUnit_reset (h : s.Cued t) (ho : s.owned) : s.Reset (resetUnit t) := by
  obtain ⟨d, hd⟩ := storeDeviceReset_eq (resetWorked t)
  have worked := resetWorked_besideWork t
  have cued := h.bearing
  have alerts := resetWorked_restarted t
  simp only [State.besideWork, Prod.mk.injEq] at worked
  simp only [State.bearing, Prod.mk.injEq] at cued
  obtain ⟨⟨rx, lane, tx, clock, -, memory, store⟩, reserve, gpi, gpo, cmd, -⟩ := worked
  obtain ⟨⟨rx', lane', tx', clock', memory', store', reserve'⟩, ⟨gpi', gpo', cmd', mask', dest'⟩,
    config'⟩ := cued
  have channels := resetWorked_ch t
  have voices (v : Fin 16) : ((resetWorked t).voice v).state = .free :=
    (congrArg Voice.state (resetWorked_voice t v)).trans
      (resetAll_free (s := resetCommandUnit t) (h.owned ho) v)
  have records : t.asrun.records <+: (resetWorked t).asrun.records := by
    rw [resetWorked_asrun]
    exact resetAll_prefix (resetCommandUnit t)
  rw [resetUnit_eq, hd]
  generalize resetWorked t = w at *
  exact {
    rx := congrArg (fun x : Receiver => { x with
      syncMiss := 0, checkFail := 0, lockLoss := 0, syncSlip := false }) (rx.trans rx')
    lane := congrArg (fun x : Lane => { x with
      stray := 0, headerError := 0, badCheck := 0, misdirected := 0, unknownKind := 0
      broken := 0 }) (lane.trans lane')
    tx := congrArg (fun x : Egress => { x with timingSlip := 0, fifoOverflow := 0 }) (tx.trans tx')
    clock := clock.trans clock'
    memory := memory.trans memory'
    store := storeKept store store' d
    reserve := reserve.trans reserve'
    gpi := gpi.trans gpi'
    gpo := gpo.trans gpo'
    cmd := commandsKept cmd cmd'
    channel := fun c => ⟨t.ch c, congrFun config' c, channels c⟩
    voice := voices
    asrun := h.asrun.trans records
    mask := alerts.addressed.1.trans mask'
    dest := alerts.addressed.2.trans dest'
    lockCount := alerts.lockCount (clearedAlert_cleared t) }

/-! ### Channels visited after the reset (R101) -/

/-- An OPEN or a CLOSE visit. -/
def Visit.ofCue (f : Visit) : Prop :=
  (∃ ref key offset window, f = openChannel ref key offset window)
    ∨ ∃ m key, f = closeChannel m key

theorem cueBegun_ofCue {n : Nat} {l : List (Fin 4)} {f : Visit} (h : s.cueBegun n = some (l, f)) :
    f.ofCue := by
  unfold State.cueBegun at h
  obtain ⟨q, -, h⟩ := Option.bind_eq_some_iff.1 (Option.filter_eq_some_iff.1 h).1
  unfold Routed.visits at h
  split at h
  · unfold openVisits at h
    dsimp only at h
    split at h
    · cases h
    · cases h
      exact .inl ⟨_, _, _, _, rfl⟩
  · unfold closeVisits at h
    dsimp only at h
    split at h
    · cases h
    · cases h
      exact .inr ⟨_, _, rfl⟩
  · cases h

theorem Visit.ofCue.cued {f : Visit} (hf : f.ofCue) (l : List (Fin 4)) (h : r.Cued s) :
    r.Cued (visitAll f l s) := by
  obtain ⟨ref, key, offset, window, rfl⟩ | ⟨m, key, rfl⟩ := hf
  · exact cued_visitAll (fun c _ ht => cued_openChannel ht ref key offset window c) l h
  · exact cued_visitAll (fun c _ ht => cued_closeChannel ht m key c) l h

/-- A visit of a channel without break records counts an enabled one as unmatched. -/
theorem Visit.ofCue.empty {f : Visit} (hf : f.ofCue) {c : Fin 4} (hq : (s.ch c).queue = []) :
    f c s = if (s.ch c).config.enable then unmatchedCue s else s := by
  obtain ⟨ref, key, offset, window, rfl⟩ | ⟨m, key, rfl⟩ := hf
  · unfold openChannel
    rw [hq]
    cases (s.ch c).config.enable <;> rfl
  · unfold closeChannel State.flight
    rw [hq]
    cases (s.ch c).config.enable <;> rfl

theorem unmatchedCue_eq (s : State) : ∃ x, unmatchedCue s =
    (s.setCues { s.cues with unmatched := bump s.cues.unmatched }).setAlert x := by
  unfold unmatchedCue
  rw [raiseAlert_eq]
  exact ⟨_, rfl⟩

/-- The visits of channels without break records. -/
theorem Visit.ofCue.empty_all {f : Visit} (hf : f.ofCue) (hb : base.Cleared) (l : List (Fin 4))
    (hq : ∀ c, (s.ch c).queue = []) (ha : base.Restarted s.alert)
    (hc : s.cues.unmatched + l.length ≤ 65535) :
    ∃ x, base.Restarted x ∧ visitAll f l s = (s.setCues { s.cues with
      unmatched := s.cues.unmatched + l.countP fun c => (s.ch c).config.enable }).setAlert x := by
  induction l generalizing s with
  | nil => exact ⟨s.alert, ha, rfl⟩
  | cons c l ih =>
    rw [List.length_cons] at hc
    rw [visitAll, List.foldl_cons, hf.empty (hq c)]
    by_cases on : (s.ch c).config.enable = true
    · obtain ⟨y, hy⟩ := unmatchedCue_eq s
      have room : s.cues.unmatched + 1 ≤ 65535 := by omega
      have one : bump s.cues.unmatched = s.cues.unmatched + 1 := Nat.min_eq_left room
      have first := restarted_unmatchedCue hb ha
      rw [hy, one] at first
      obtain ⟨x, hx, all⟩ := ih (s := (s.setCues { s.cues with
        unmatched := s.cues.unmatched + 1 }).setAlert y) hq first (by
          change s.cues.unmatched + 1 + l.length ≤ 65535
          omega)
      refine ⟨x, hx, ?_⟩
      rw [if_pos on, hy, one]
      refine all.trans ?_
      rw [List.countP_cons_of_pos (p := fun c => (s.ch c).config.enable) on]
      have sum : s.cues.unmatched + 1 + l.countP (fun c => (s.ch c).config.enable) =
          s.cues.unmatched + (l.countP (fun c => (s.ch c).config.enable) + 1) := by omega
      rw [← sum]
      rfl
    · rw [if_neg on]
      obtain ⟨x, hx, all⟩ := ih hq ha (by omega)
      refine ⟨x, hx, all.trans ?_⟩
      rw [List.countP_cons_of_neg (p := fun c => (s.ch c).config.enable) on]

/-- Every channel of t is one with the configuration it has in s, at rest. -/
def State.AtRest (s t : State) : Prop :=
  ∀ c, ∃ x : Channel, x.config = (s.ch c).config ∧ t.ch c = zeroedCounts x.rested

theorem State.AtRest.queue (h : s.AtRest t) (c : Fin 4) : (t.ch c).queue = [] := by
  obtain ⟨x, -, same⟩ := h c
  rw [same]
  rfl

theorem State.AtRest.enable (h : s.AtRest t) (c : Fin 4) :
    (t.ch c).config.enable = (s.ch c).config.enable := by
  obtain ⟨x, config, same⟩ := h c
  rw [same, ← config]
  rfl

theorem resetUnit_atRest (h : s.Cued t) : s.AtRest (resetUnit t) := by
  obtain ⟨d, hd⟩ := storeDeviceReset_eq (resetWorked t)
  have channels := resetWorked_ch t
  have cued := h.bearing
  simp only [State.bearing, Prod.mk.injEq] at cued
  obtain ⟨-, -, config⟩ := cued
  rw [resetUnit_eq, hd]
  generalize resetWorked t = w at *
  exact fun c => ⟨t.ch c, congrFun config c, channels c⟩

/-- Counts of unmatched cues and reports leave a reset part as it is. -/
theorem State.Reset.of_unmatched {q : CueCounters} {x : AlertUnit} (h : s.Reset t)
    (hx : x.mask = t.alert.mask ∧ x.dest = t.alert.dest) (lock : x.lockCount = 0) :
    s.Reset ((t.setCues q).setAlert x) :=
  { h with mask := hx.1.trans h.mask, dest := hx.2.trans h.dest, lockCount := lock }

theorem resetUnit_cues (s : State) : (resetUnit s).cues = .zero := by
  rw [resetUnit_eq]
  rfl

theorem resetUnit_inbox (s : State) : (resetUnit s).cmd.inbox = s.cmd.inbox := by
  obtain ⟨d, hd⟩ := storeDeviceReset_eq (resetWorked s)
  have worked := resetWorked_besideWork s
  simp only [State.besideWork, Prod.mk.injEq] at worked
  obtain ⟨-, -, -, -, cmd, -⟩ := worked
  rw [resetUnit_eq, hd]
  generalize resetWorked s = w at *
  have inbox : w.cmd.inbox = s.cmd.inbox := by rw [cmd]; rfl
  exact inbox

theorem resetUnit_alert (s : State) : s.clearedAlert.Restarted (resetUnit s).alert := by
  obtain ⟨d, hd⟩ := storeDeviceReset_eq (resetWorked s)
  have worked := resetWorked_restarted s
  rw [resetUnit_eq, hd]
  generalize resetWorked s = w at *
  exact worked

/-- The visits of the channels left, after the reset. -/
theorem visitAll_resetUnit {f : Visit} (hf : f.ofCue) (l : List (Fin 4)) (hl : l.length ≤ 4)
    (h : s.AtRest (resetUnit t)) :
    ∃ x, (x.mask = (resetUnit t).alert.mask ∧ x.dest = (resetUnit t).alert.dest)
      ∧ x.lockCount = 0 ∧ visitAll f l (resetUnit t) = ((resetUnit t).setCues { CueCounters.zero with
        unmatched := l.countP fun c => (s.ch c).config.enable }).setAlert x := by
  have none_counted : (resetUnit t).cues.unmatched = 0 := by
    rw [resetUnit_cues]
    rfl
  obtain ⟨x, restarted, all⟩ := hf.empty_all (clearedAlert_cleared t) l h.queue (resetUnit_alert t)
    (by omega)
  have alert := (resetUnit_alert t).addressed
  have counts : (fun c => ((resetUnit t).ch c).config.enable) = fun c => (s.ch c).config.enable :=
    funext h.enable
  rw [none_counted, Nat.zero_add, counts, resetUnit_cues] at all
  exact ⟨x, ⟨restarted.addressed.1.trans alert.1.symm, restarted.addressed.2.trans alert.2.symm⟩,
    restarted.lockCount (clearedAlert_cleared t), all⟩

/-! ### The command -/

/-- The state after DEVICE_RESET's work. -/
def resetDone (s : State) (rest : List Command) : State :=
  resetAround (Config.cueVisited s.cmd.draws) (drawFree (taken s rest))

theorem exec_deviceReset {src : Byte} {h : CmdHeader} {rest : List Command}
    (hready : ready s src h [] rest) (hcode : h.code = 0x03) :
    exec .deviceReset s = .next ((resetDone s rest).setCmd { (resetDone s rest).cmd with
      build := replyPackets src (resetDone s rest).lane.unitAddr h.code h.tag
        (.done false false []) }) := by
  obtain ⟨settled, noBuild, queue⟩ := hready
  have row : exec .deviceReset s = runRow (hasCode 0x03) true (sized 0 deviceReset) s := rfl
  have mine : hasCode 0x03 ⟨src, h, []⟩ = true := beq_iff_eq.2 hcode
  have work : sized 0 deviceReset ⟨src, h, []⟩ (s.setCmd { s.cmd with queue := rest }) =
    (.done false false [], resetDone s rest) := rfl
  have fits : limitReply (dataLimit h) (.done false false []) = .done false false [] := by
    simp [limitReply]
  rw [row, runRow_due settled noBuild queue mine, work]
  dsimp only
  rw [fits]
  rfl

/-- The visited channels' work leaves a state the reset can follow. -/
theorem visited_cued {f : Visit} (hf : f.ofCue) (l : List (Fin 4)) (s : State) :
    (popRouted s).Cued (visitAll f l (countCue (popRouted s))) :=
  hf.cued l (cued_modCues (State.Cued.refl _) _)

theorem State.Reset.of_popped (h : (popRouted s).Reset t) : s.Reset t := { h with }

theorem cueBegun_length {n : Nat} {l : List (Fin 4)} {f : Visit} (h : s.cueBegun n = some (l, f)) :
    l.length ≤ 4 := by
  have selected (m : Nat) : (maskChannels m).length ≤ 4 := List.length_filter_le ..
  unfold State.cueBegun at h
  obtain ⟨q, -, h⟩ := Option.bind_eq_some_iff.1 (Option.filter_eq_some_iff.1 h).1
  unfold Routed.visits at h
  split at h
  · unfold openVisits at h
    dsimp only at h
    split at h
    · cases h
    · cases h
      exact selected _
  · unfold closeVisits at h
    dsimp only at h
    split at h
    · cases h
    · cases h
      exact selected _
  · cases h

theorem resetAround_none {n : Nat} (h : s.cueBegun n = none) : resetAround n s = resetUnit s := by
  rw [resetAround, h]

theorem resetAround_some {n : Nat} {l : List (Fin 4)} {f : Visit}
    (h : s.cueBegun n = some (l, f)) : resetAround n s = visitAll f (l.drop n)
      (resetUnit (visitAll f (l.take n) (countCue (popRouted s)))) := by
  rw [resetAround, h]

theorem resetAround_reset (n : Nat) (ho : s.owned) : s.Reset (resetAround n s) := by
  obtain none_ | ⟨⟨l, f⟩, begun⟩ := Option.eq_none_or_eq_some (s.cueBegun n)
  · rw [resetAround_none none_]
    exact resetUnit_reset (State.Cued.refl s) ho
  · rw [resetAround_some begun]
    have hf := cueBegun_ofCue begun
    have hl := cueBegun_length begun
    have before := resetUnit_reset (visited_cued hf (l.take n) s) ho
    obtain ⟨x, addressed, lock, all⟩ := visitAll_resetUnit hf (l.drop n)
      (by rw [List.length_drop]; omega) (resetUnit_atRest (visited_cued hf (l.take n) s))
    rw [all]
    exact (before.of_unmatched addressed lock).of_popped

/-- Every field the reset leaves. -/
theorem deviceReset_clearsTheWork : Claim.resetClearsTheWork := by
  intro s src h rest hready hcode owned
  have done : (drawFree (taken s rest)).Reset (resetDone s rest) :=
    resetAround_reset _ (s := drawFree (taken s rest)) owned
  refine ⟨_, exec_deviceReset hready hcode, ?_, fun c => ?_, done.voice, done.store, done.rx,
    done.lane, done.tx, done.clock, done.memory, done.reserve, done.gpi, done.gpo, done.asrun,
    done.mask, done.dest, done.lockCount⟩
  · have unit : (resetDone s rest).lane.unitAddr = s.lane.unitAddr := by
      rw [done.lane]
      rfl
    rw [unit]
    exact congrArg (fun x : CommandUnit => { x with
      build := replyPackets src s.lane.unitAddr h.code h.tag (.done false false []) }) done.cmd
  · obtain ⟨x, config, same⟩ := done.channel c
    have config' : x.config = (s.ch c).config := config
    rw [State.setCmd_ch, same, ← config']
    exact ⟨rfl, rfl, rfl, rfl, rfl, rfl, rfl, rfl, rfl, rfl⟩

/-! ### A reset inside a cue -/

/-- An OPEN or CLOSE cue in range visits the channels its mask selects. -/
theorem visits_of_cue {dest sender kind mask : Byte} {key offset window : Nat} {ref : AC}
    (hkind : kind = 1 ∨ kind = 2) (hm : mask.toNat ≤ 15) (hk : key < 2 ^ 32)
    (ho : offset ≤ 480000) (hw : window ≤ 14400000) : ∃ f,
    Routed.visits ⟨.cue, dest, sender, [kind, mask] ++ toBytes key 4 ++ toBytes offset 4
      ++ toBytes window 4, ref⟩ = some (allChannels.filter fun c => mask.getLsbD c.val, f) := by
  have channels : maskChannels mask.toNat = allChannels.filter fun c => mask.getLsbD c.val := rfl
  rw [← channels]
  obtain rfl | rfl := hkind
  · have visits (p : List Byte) : Routed.visits ⟨.cue, dest, sender, 1 :: p, ref⟩ =
      openVisits (1 :: p) ref := rfl
    simp only [List.cons_append, List.nil_append, List.append_assoc, visits, openVisits,
      List.length_cons, List.length_append, toBytes_length, field_cons_succ]
    rw [field_byte, byteAt_cons_zero, field_toBytes_of_lt _ (by omega),
      field_skip _ _ (by decide), field_toBytes_of_lt _ (by omega), field_skip _ _ (by decide),
      field_skip _ _ (by decide), field_toBytes, Nat.mod_eq_of_lt (by omega), if_neg (by omega)]
    exact ⟨_, rfl⟩
  · have visits (p : List Byte) : Routed.visits ⟨.cue, dest, sender, 2 :: p, ref⟩ =
      closeVisits (2 :: p) ref := rfl
    simp only [List.cons_append, List.nil_append, List.append_assoc, visits, closeVisits,
      List.length_cons, List.length_append, toBytes_length, field_cons_succ]
    rw [field_byte, byteAt_cons_zero, field_toBytes_of_lt _ (by omega),
      field_skip _ _ (by decide), field_toBytes_of_lt _ (by omega), if_neg (by omega)]
    exact ⟨_, rfl⟩

theorem cueBegun_zero (s : State) : s.cueBegun 0 = none := by
  rw [State.cueBegun, Option.filter_eq_none_iff]
  exact fun _ _ => by decide

theorem cueBegun_visited {q : Routed} {more : List Routed} {n : Nat} {l : List (Fin 4)} {f : Visit}
    (hq : s.cmd.inbox = q :: more) (hv : q.visits = some (l, f)) (hn : n ≠ 0) :
    s.cueBegun n = some (l, f) := by
  have some_ : (n != 0) = true := by simpa using hn
  rw [State.cueBegun, hq, List.head?_cons, Option.bind_some, hv, Option.filter_some, if_pos some_]

/-- With no channel visited, or another packet at the front, no decoding has begun. -/
theorem cueBegun_of_noCue {n : Nat} (h : n = 0 ∨ ∀ q ∈ s.cmd.inbox.head?, q.route ≠ .cue) :
    s.cueBegun n = none := by
  obtain rfl | other := h
  · exact cueBegun_zero s
  · have noVisits : s.cmd.inbox.head?.bind Routed.visits = none := by
      rw [Option.bind_eq_none_iff]
      intro q hq
      have route := other q hq
      unfold Routed.visits
      split
      · next cue _ => exact absurd cue route
      · next cue _ => exact absurd cue route
      · rfl
    rw [State.cueBegun, noVisits, Option.filter_none]

theorem deviceReset_fallsInsideACue : Claim.resetFallsInsideACue := by
  intro s src h rest dest sender kind mask key offset window ref more hready hcode hkind hm hk ho hw
    inbox visited left
  refine ⟨_, exec_deviceReset hready hcode, ?_⟩
  by_cases begun : visited = 0
  · have whole : resetDone s rest = resetUnit (drawFree (taken s rest)) := by
      refine resetAround_none ?_
      rw [show Config.cueVisited s.cmd.draws = 0 from begun]
      exact cueBegun_zero _
    have queues := (resetUnit_atRest (State.Cued.refl (drawFree (taken s rest)))).queue
    have kept : (resetUnit (drawFree (taken s rest))).cmd.inbox = s.cmd.inbox :=
      resetUnit_inbox (drawFree (taken s rest))
    have cues := resetUnit_cues (drawFree (taken s rest))
    rw [whole, if_pos begun, if_pos begun]
    generalize resetUnit (drawFree (taken s rest)) = u at *
    exact ⟨kept, cues, queues⟩
  · obtain ⟨f, hv⟩ := visits_of_cue (dest := dest) (sender := sender) (ref := ref) hkind hm hk ho hw
    have some_ := cueBegun_visited (s := drawFree (taken s rest)) inbox hv begun
    have hf := cueBegun_ofCue some_
    have hl := cueBegun_length some_
    have cued := visited_cued hf ((allChannels.filter fun c => mask.getLsbD c.val).take visited)
      (drawFree (taken s rest))
    have atRest := resetUnit_atRest cued
    obtain ⟨x, -, -, all⟩ := visitAll_resetUnit hf
      ((allChannels.filter fun c => mask.getLsbD c.val).drop visited)
      (by rw [List.length_drop]; omega) atRest
    have whole : resetDone s rest = _ := (resetAround_some some_).trans all
    have queue := congrArg CommandUnit.inbox (congrArg (fun b => b.2.1.2.2.1) cued.bearing)
    have popped : (popRouted (drawFree (taken s rest))).cmd.inbox = more := congrArg List.tail inbox
    have kept := (resetUnit_inbox _).trans (queue.trans popped)
    have queues := atRest.queue
    rw [whole, if_neg begun, if_neg begun]
    generalize resetUnit _ = u at *
    exact ⟨kept, rfl, queues⟩

/-! ### The holds given back -/

/-- A reset of another channel leaves what channel c refers to. -/
theorem channelReferences_resetChannel {c d : Fin 4} (hd : c ≠ d) (s : State) :
    channelReferences (resetChannel d s) c = channelReferences s c := by
  funext n
  unfold channelReferences
  rw [resetChannel_other hd]
  refine congrArg (_ + ·) (congrArg List.length (List.filter_congr fun v _ => ?_))
  cases mine : (s.voice v).owner.any fun o => o.channel == c with
  | true =>
    have other : (s.voice v).owner.any (fun o => o.channel == d) = false := by
      obtain ⟨o, ho, hc⟩ := Option.any_eq_true _ _ |>.1 mine
      rw [ho]
      have := beq_iff_eq.1 hc
      simpa [this] using hd
    rw [resetChannel_notOwned other, mine]
  | false =>
    obtain freed | same := resetChannel_voice_cases d s v
    · rw [freed]
      simp [Voice.freed]
    · rw [same, mine]

theorem State.Returned.congr {f g : Nat → Nat} (h : s.Returned f t) (same : ∀ n, f n = g n) :
    s.Returned g t := (funext same : f = g) ▸ h

/-- The resets of several channels give back what each refers to. -/
theorem resetChannels_returned {l : List (Fin 4)} (hl : l.Nodup) (hf : s.formed)
    (distinct : ∀ c, ((s.ch c).queue.map fun r => r.number).Nodup) :
    s.Returned (fun n => (l.map fun c => channelReferences s c n).sum)
      (l.foldl (fun t c => resetChannel c t) s) := by
  induction l generalizing s with
  | nil => exact State.returned_none hf
  | cons c l ih =>
    obtain ⟨fresh, hl⟩ := List.nodup_cons.1 hl
    have first := resetChannel_returned hf (distinct c)
    have queues (d : Fin 4) : (((resetChannel c s).ch d).queue.map fun r => r.number).Nodup := by
      by_cases hd : d = c
      · rw [hd, resetChannel_ch]
        exact List.nodup_nil
      · rw [resetChannel_other hd]
        exact distinct d
    have both := first.trans (ih hl first.1 queues)
    rw [List.foldl_cons]
    refine both.congr fun n => ?_
    rw [List.map_cons, List.sum_cons]
    refine congrArg (_ + ·) (congrArg List.sum (List.map_congr_left fun d hd => ?_))
    have hne : d ≠ c := fun same => fresh (same ▸ hd)
    rw [channelReferences_resetChannel hne]

/-- Each voice in use is owned by one channel. -/
theorem voices_byChannel (owned : s.owned) (n : Nat) (l : List (Fin 16)) :
    (allChannels.map fun c => (l.filter fun v => (s.voice v).state != .free
      && (s.voice v).owner.any (fun o => o.channel == c) && (s.voice v).clip == some n).length).sum =
    (l.filter fun v => (s.voice v).state != .free && (s.voice v).clip == some n).length := by
  induction l with
  | nil => rfl
  | cons v l ih =>
    simp only [allChannels, List.map_cons, List.map_nil, List.sum_cons, List.sum_nil] at ih ⊢
    by_cases used : (s.voice v).state = .free
    · simpa [List.filter_cons, used] using ih
    · obtain ⟨o, ho⟩ := Option.isSome_iff_exists.1 (owned v used)
      by_cases clip : (s.voice v).clip = some n
      · rw [List.filter_cons_of_pos (l := l) (p := fun v => (s.voice v).state != .free
          && (s.voice v).clip == some n) (by simp [used, clip]), List.length_cons, ← ih]
        obtain ⟨c, p⟩ := o
        fin_cases c <;> simp [used, clip, ho] <;> omega
      · simpa [List.filter_cons, clip] using ih

theorem references_eq (owned : s.owned) (n : Nat) :
    (allChannels.map fun c => channelReferences s c n).sum = references s n := by
  rw [references, ← voices_byChannel owned n allVoices]
  simp only [channelReferences, allChannels, List.map_cons, List.map_nil, List.sum_cons,
    List.sum_nil]
  omega

/-- The clips that are ARMED or FILLING. -/
def Store.armed (st : Store) : List Nat :=
  st.armList.map (fun a => a.clip) ++ st.engine.toList.map fun g => g.arm.clip

theorem mem_armed_iff (st : Store) (n : Nat) : n ∈ st.armed ↔ (st.armOf n).isSome = true := by
  unfold Store.armed Store.armOf
  rw [List.mem_append, List.mem_map]
  obtain missing | ⟨a, ha⟩ := Option.eq_none_or_eq_some (st.armList.find? fun a => a.clip == n)
  · have notListed : ¬ ∃ a ∈ st.armList, a.clip = n := by
      rintro ⟨a, ha, rfl⟩
      simpa using List.find?_eq_none.1 missing a ha
    rw [missing, or_iff_right notListed]
    cases st.engine with
    | none => simp
    | some g =>
      rw [Option.toList_some, List.map_cons, List.map_nil, List.mem_singleton, eq_comm]
      by_cases hg : g.arm.clip = n <;> simp [hg]
  · have listed : ∃ a ∈ st.armList, a.clip = n :=
      ⟨a, List.mem_of_find?_eq_some ha, by simpa using List.find?_some ha⟩
    simp only [ha, listed, true_or, Option.isSome_some]

theorem storeDeviceReset_eq_emptyAll (s : State) : storeDeviceReset s =
    (emptyAll s.store.armed s).setStore { (emptyAll s.store.armed s).store with
      armList := [], engine := none, lastReport := .initial } := by
  unfold storeDeviceReset Store.armed emptyAll
  cases s.store.engine <;> rfl

theorem storeDeviceReset_entry (hf : s.formed) (n : Nat) : (storeDeviceReset s).entry n =
    if (s.store.armOf n).isSome then DirEntry.blank else s.entry n := by
  have same : (storeDeviceReset s).entry n = (emptyAll s.store.armed s).entry n := by
    rw [storeDeviceReset_eq_emptyAll]
    rfl
  rw [same, emptyAll_entry _ hf]
  simp only [mem_armed_iff]

/-- With every voice in use owned, the resets give back every hold. -/
theorem resetAll_returned (hf : s.formed) (owned : s.owned)
    (distinct : ∀ c, ((s.ch c).queue.map fun r => r.number).Nodup) :
    s.Returned (references s) (resetAll s) := by
  unfold resetAll forChannels
  exact (resetChannels_returned (l := allChannels) (by decide) hf distinct).congr
    (references_eq owned)

theorem resetWorked_returned (hf : s.formed) (owned : s.owned)
    (distinct : ∀ c, ((s.ch c).queue.map fun r => r.number).Nodup) :
    s.Returned (references s) (resetWorked s) := by
  have returned : s.Returned (references s) (resetAll (resetCommandUnit s)) :=
    resetAll_returned (s := resetCommandUnit s) hf owned distinct
  refine returned.of_eq ?_ ?_
  · rw [resetWorked, forChannels_keeps State.memory zeroChannelCounts fun _ _ => rfl]
  · rw [resetWorked, forChannels_keeps State.store zeroChannelCounts fun _ _ => rfl]

theorem armOf_of_kept {x y : Store}
    (h : { x with directory := [] } = { y with directory := [] }) (n : Nat) :
    x.armOf n = y.armOf n := by
  simp only [Store.mk.injEq] at h
  unfold Store.armOf
  rw [h.2.2.2.2.2.1, h.2.2.2.2.2.2.1]

theorem resetUnit_entry (hf : s.formed) (owned : s.owned)
    (distinct : ∀ c, ((s.ch c).queue.map fun r => r.number).Nodup) (n : Nat) :
    (resetUnit s).entry n = if (s.store.armOf n).isSome then DirEntry.blank
      else { s.entry n with hold := (s.entry n).hold - references s n } := by
  have returned := resetWorked_returned hf owned distinct
  have worked := resetWorked_besideWork s
  simp only [State.besideWork, Prod.mk.injEq] at worked
  obtain ⟨⟨-, -, -, -, -, -, store⟩, -⟩ := worked
  have arms : (resetWorked s).store.armOf n = s.store.armOf n := armOf_of_kept store n
  have emptied := storeDeviceReset_entry returned.1 n
  rw [arms, returned.2 n] at emptied
  rw [resetUnit_eq]
  generalize storeDeviceReset (resetWorked s) = w at *
  exact emptied

theorem deviceReset_clearsStoreAndAlerts : Claim.resetClearsStoreAndAlerts := by
  intro s src h rest hready hcode owned noCue cleared
  have notBegun : (drawFree (taken s rest)).cueBegun (Config.cueVisited s.cmd.draws) = none :=
    cueBegun_of_noCue noCue
  have whole : resetDone s rest = resetUnit (drawFree (taken s rest)) := resetAround_none notBegun
  have alerts : cleared.Restarted (resetUnit (drawFree (taken s rest))).alert :=
    resetUnit_alert (drawFree (taken s rest))
  have kept : (resetUnit (drawFree (taken s rest))).cmd.inbox = s.cmd.inbox :=
    resetUnit_inbox (drawFree (taken s rest))
  have cues := resetUnit_cues (drawFree (taken s rest))
  have holds : s.formed → (∀ c : Fin 4, ((s.ch c).queue.map fun r => r.number).Nodup) →
      ∀ n, (resetUnit (drawFree (taken s rest))).entry n =
        if (s.store.armOf n).isSome then DirEntry.blank
        else { s.entry n with hold := (s.entry n).hold - references s n } :=
    fun hf distinct n => resetUnit_entry (s := drawFree (taken s rest)) hf owned distinct n
  refine ⟨_, exec_deviceReset hready hcode, ?_⟩
  rw [whole]
  generalize resetUnit (drawFree (taken s rest)) = u at *
  refine ⟨kept, cues, holds, fun unmasked => ?_, fun quiet => ?_, fun pending => ?_⟩
  · obtain same | ⟨-, masked, -⟩ := alerts
    · exact same
    · exact absurd unmasked masked
  · obtain same | ⟨pending, -⟩ := alerts
    · exact same
    · exact absurd pending (by rw [show u.alert.pending = false from quiet]; decide)
  · obtain same | ⟨-, -, -, -, number, -, m, ready, hnumber, lock⟩ := alerts
    · have none_ : u.alert.pending = false := by rw [same]
      exact absurd pending (by rw [State.setCmd_alert, none_]; decide)
    · exact ⟨number, m, ready, hnumber, lock⟩

/-! ### What the channel that works records -/

/-- Two states a channel's airings are recorded of alike. -/
structure State.RecordsAlike (c : Fin 4) (s t : State) : Prop where
  ch : t.ch c = s.ch c
  events : t.events = s.events
  voice : ∀ v, t.voice v = s.voice v
  forming : t.forming = s.forming
  nextAC : t.nextAC = s.nextAC
  key : ∀ n, (t.entry n).spotKey = (s.entry n).spotKey

theorem State.RecordsAlike.refl (c : Fin 4) (s : State) : s.RecordsAlike c s :=
  ⟨rfl, rfl, fun _ => rfl, rfl, rfl, fun _ => rfl⟩

theorem State.RecordsAlike.trans {c : Fin 4} {u : State} (h : s.RecordsAlike c t)
    (h' : t.RecordsAlike c u) : s.RecordsAlike c u :=
  ⟨h'.ch.trans h.ch, h'.events.trans h.events, fun v => (h'.voice v).trans (h.voice v),
    h'.forming.trans h.forming, h'.nextAC.trans h.nextAC, fun n => (h'.key n).trans (h.key n)⟩

theorem State.RecordsAlike.records {c : Fin 4} (h : s.RecordsAlike c t) :
    resetRecords t c = resetRecords s c := by
  have begun : begunAt t = begunAt s := by
    funext v taken
    rw [begunAt, begunAt, h.events, h.voice]
  have silent : silentAt t = silentAt s := by
    funext v
    rw [silentAt, silentAt, h.events, h.forming, h.nextAC]
  have cut : cutAiring t = cutAiring s := by
    funext p
    rw [cutAiring, cutAiring, begun, silent]
  have items : itemRecords t = itemRecords s := by
    funext d r plan came
    simp only [itemRecords, h.key]
  have fill : fillRecord t = fillRecord s := by
    funext d r plan came
    simp only [fillRecord, h.key]
  have ended : endedRecord t = endedRecord s := by
    funext d kind v clip key taken
    simp only [endedRecord, begun, silent]
  have breaks : breakResetRecords t = breakResetRecords s := by
    funext d r plan
    simp only [breakResetRecords, items, fill, cut]
  have flight : t.flight c = s.flight c := by rw [State.flight, h.ch, State.flight]
  rw [resetRecords, resetRecords, flight, breaks, ended, h.ch]

theorem releaseVoices_free (l : List (Fin 16)) (h : ∀ v ∈ l, (s.voice v).state = .free) :
    releaseVoices l s = s := by
  induction l with
  | nil => rfl
  | cons v l ih =>
    rw [releaseVoices_cons, releaseVoice_free (h v List.mem_cons_self)]
    exact ih fun w hw => h w (List.mem_cons_of_mem v hw)

theorem releaseChannelVoices_none {c : Fin 4} (h : s.ownsNone c) : releaseChannelVoices c s = s := by
  rw [releaseChannelVoices_eq]
  refine releaseVoices_free _ fun v hv => ?_
  by_contra used
  have mine := (mem_voicesOf c v).1 hv
  rw [h v used] at mine
  exact Bool.false_ne_true mine

theorem removeRecord_keys (c : Fin 4) (n : Nat) (hf : s.formed) : (removeRecord c n s).formed
    ∧ ∀ m, ((removeRecord c n s).entry m).spotKey = (s.entry m).spotKey := by
  obtain missing | ⟨r, hr⟩ := Option.eq_none_or_eq_some (s.record c n)
  · rw [removeRecord, missing]
    exact ⟨hf, fun _ => rfl⟩
  · obtain ⟨formed, entries⟩ := removeRecord_returned hf hr
    exact ⟨formed, fun m => by rw [entries]; rfl⟩

theorem removeRecords_keys (c : Fin 4) (l : List Nat) (hf : s.formed) :
    (l.foldl (fun t n => removeRecord c n t) s).formed
      ∧ ∀ m, ((l.foldl (fun t n => removeRecord c n t) s).entry m).spotKey = (s.entry m).spotKey := by
  induction l generalizing s with
  | nil => exact ⟨hf, fun _ => rfl⟩
  | cons n l ih =>
    obtain ⟨formed, first⟩ := removeRecord_keys c n hf
    obtain ⟨formed', rest⟩ := ih formed
    exact ⟨formed', fun m => (rest m).trans (first m)⟩

theorem removeAllRecords_events (c : Fin 4) (s : State) :
    (removeAllRecords c s).events = s.events := by
  refine removeAllRecords_keeps State.events (fun n t => ?_) s
  unfold removeRecord
  split
  · rfl
  · exact releaseHolds_events _ _

theorem resetChannel_events_store (c : Fin 4) (s : State) :
    (resetChannel c s).events = (resetWork c s).events
      ∧ (resetChannel c s).store = (resetWork c s).store := by
  rw [resetChannel_eq]
  exact ⟨by rw [setChannelState_events, putToRest, clearSilence_events, State.setCh_events],
    by rw [setChannelState_store, putToRest, clearSilence_store, State.setCh_store]⟩

/-- The reset of a channel without voices leaves what another channel's records are made of. -/
theorem resetChannel_alike {c d : Fin 4} (hd : d ≠ c) (hf : s.formed) (idle : s.ownsNone d) :
    (resetChannel d s).formed ∧ s.RecordsAlike c (resetChannel d s) := by
  have around := State.sameAround_of_eq (resetChannel_around (c := d) (s := s))
  have work : resetWork d s = removeAllRecords d (asrunWriteAll (resetRows d s) s) := by
    refine releaseChannelVoices_none fun v used => ?_
    rw [removeAllRecords_voice, asrunWriteAll_voice] at used ⊢
    exact idle v used
  obtain ⟨events, store⟩ := resetChannel_events_store d s
  have written : (asrunWriteAll (resetRows d s) s).formed := by
    rw [State.formed, asrunWriteAll_memory, asrunWriteAll_store]
    exact hf
  obtain ⟨formed, keys⟩ := removeRecords_keys d
    (((asrunWriteAll (resetRows d s) s).ch d).queue.map fun r => r.number) written
  rw [work] at events store
  refine ⟨?_, ⟨resetChannel_other hd.symm s, ?_, fun v => ?_, around.forming, ?_, fun n => ?_⟩⟩
  · rw [State.formed, around.memory, store]
    exact ⟨hf.1, formed.2⟩
  · rw [events, removeAllRecords_events, asrunWriteAll_events]
  · rw [resetChannel_voice, work, removeAllRecords_voice, asrunWriteAll_voice]
  · rw [State.nextAC, around.clock, State.nextAC]
  · rw [entry_of_store store]
    refine (keys n).trans ?_
    rw [asrunWriteAll_entry]

/-- A channel with nothing to record. -/
def State.restful (s : State) (d : Fin 4) : Prop :=
  s.flight d = none ∧ (s.ch d).carts = [] ∧ (s.ch d).monitor.emRecord = none

theorem restful_resetChannel {d : Fin 4} (e : Fin 4) (h : s.restful d) :
    (resetChannel e s).restful d := by
  by_cases he : d = e
  · rw [State.restful, State.flight, he, resetChannel_ch]
    exact ⟨rfl, rfl, rfl⟩
  · rw [State.restful, State.flight, resetChannel_other he]
    exact h

theorem resetChannel_recordsNothing {d : Fin 4} (h : s.restful d) :
    (resetChannel d s).asrun = s.asrun := by
  obtain ⟨flight, carts, em⟩ := h
  rw [resetChannel_asrun, resetRecords_nil flight carts em]
  rfl

theorem resets_recordNothing {l : List (Fin 4)} (h : ∀ d ∈ l, s.restful d) :
    (l.foldl (fun t d => resetChannel d t) s).asrun = s.asrun := by
  induction l generalizing s with
  | nil => rfl
  | cons d l ih =>
    have first := resetChannel_recordsNothing (h d List.mem_cons_self)
    have rest := ih fun e he => restful_resetChannel d (h e (List.mem_cons_of_mem d he))
    rw [List.foldl_cons, rest, first]

theorem resets_restful {d : Fin 4} (l : List (Fin 4)) (h : s.restful d) :
    (l.foldl (fun t e => resetChannel e t) s).restful d := by
  induction l generalizing s with
  | nil => exact h
  | cons e l ih =>
    have rest := ih (restful_resetChannel e h)
    rw [List.foldl_cons]
    exact rest

theorem resets_alike {c : Fin 4} {l : List (Fin 4)} (hl : c ∉ l) (hf : s.formed)
    (idle : ∀ d, d ≠ c → s.ownsNone d) :
    s.RecordsAlike c (l.foldl (fun t d => resetChannel d t) s) := by
  induction l generalizing s with
  | nil => exact State.RecordsAlike.refl c s
  | cons d l ih =>
    obtain ⟨hne, hl⟩ := List.ne_and_not_mem_of_not_mem_cons hl
    obtain ⟨formed, alike⟩ := resetChannel_alike hne.symm hf (idle d hne.symm)
    have rest := ih hl formed fun e he => (idle e he).resetChannel d
    rw [List.foldl_cons]
    exact alike.trans rest

/-- With work on channel c alone, the resets record what it was airing. -/
theorem resetAll_records {c : Fin 4} (hf : s.formed) (idle : ∀ d, d ≠ c → s.ownsNone d)
    (others : ∀ d, d ≠ c → s.restful d)
    (room : s.asrun.records.length + (resetRecords s c).length ≤ 256) :
    (resetAll s).asrun = ⟨s.asrun.records ++ resetRecords s c, s.asrun.lost⟩ := by
  have nodup : allChannels.Nodup := by decide
  obtain ⟨before, after, split⟩ := List.append_of_mem (a := c) (l := allChannels) (by
    fin_cases c <;> decide)
  rw [split] at nodup
  have notBefore : c ∉ before := fun hc =>
    (List.nodup_append.1 nodup).2.2 c hc c List.mem_cons_self rfl
  have notAfter : c ∉ after := (List.nodup_cons.1 (List.nodup_append.1 nodup).2.1).1
  have elsewhere {l : List (Fin 4)} (hl : c ∉ l) : ∀ d ∈ l, d ≠ c := fun d hd same => hl (same ▸ hd)
  unfold resetAll forChannels
  rw [split, List.foldl_append, List.foldl_cons, resets_recordNothing]
  · rw [resetChannel_asrun, (resets_alike notBefore hf idle).records]
    have first := resets_recordNothing fun d hd => others d (elsewhere notBefore d hd)
    rw [asrunWriteAll_room (by rw [first]; exact room), first]
  · intro d hd
    refine restful_resetChannel c ?_
    exact resets_restful before (others d (elsewhere notAfter d hd))

theorem resetUnit_asrun (s : State) : (resetUnit s).asrun = (resetAll (resetCommandUnit s)).asrun := by
  obtain ⟨d, hd⟩ := storeDeviceReset_eq (resetWorked s)
  have worked := resetWorked_asrun s
  rw [resetUnit_eq, hd]
  generalize resetWorked s = w at *
  exact worked

/-- The state the resets of the channels begin from. -/
def resetFrom (s : State) (rest : List Command) : State := resetCommandUnit (drawFree (taken s rest))

theorem resetFrom_ch (s : State) (rest : List Command) (c : Fin 4) :
    (resetFrom s rest).ch c = s.ch c := rfl

theorem resetFrom_asrun (s : State) (rest : List Command) :
    (resetFrom s rest).asrun = s.asrun := rfl

theorem resetFrom_voice (s : State) (rest : List Command) (v : Fin 16) :
    (resetFrom s rest).voice v = s.voice v := rfl

theorem resetFrom_formed (hf : s.formed) (rest : List Command) : (resetFrom s rest).formed := hf

theorem resetFrom_alike (s : State) (rest : List Command) (c : Fin 4) :
    s.RecordsAlike c (resetFrom s rest) :=
  ⟨rfl, rfl, resetFrom_voice s rest, rfl, rfl, fun _ => rfl⟩

/-- With no cue being decoded, the records are those of the channels' resets. -/
theorem resetDone_asrun {rest : List Command}
    (noCue : Config.cueVisited s.cmd.draws = 0 ∨ ∀ r ∈ s.cmd.inbox.head?, r.route ≠ .cue) :
    (resetDone s rest).asrun = (resetAll (resetFrom s rest)).asrun := by
  have notBegun : (drawFree (taken s rest)).cueBegun (Config.cueVisited s.cmd.draws) = none :=
    cueBegun_of_noCue noCue
  rw [resetDone, resetAround_none notBegun, resetUnit_asrun, resetFrom]

theorem deviceReset_recordsTheWork : Claim.deviceResetRecordsTheWork := by
  intro s src h c rest hready hcode hf noCue owned others room
  have idle (d : Fin 4) (hd : d ≠ c) : (resetFrom s rest).ownsNone d := by
    intro v used
    rw [resetFrom_voice] at used ⊢
    obtain ⟨o, ho, hc⟩ := Option.any_eq_true _ _ |>.1 (owned v used)
    rw [ho]
    have same := beq_iff_eq.1 hc
    simpa [same] using hd.symm
  have restful (d : Fin 4) (hd : d ≠ c) : (resetFrom s rest).restful d := by
    rw [State.restful, State.flight, resetFrom_ch]
    exact others d hd
  have records := resetDone_asrun (rest := rest) noCue
  rw [resetAll_records (resetFrom_formed hf rest) idle restful (by
    rw [(resetFrom_alike s rest c).records, resetFrom_asrun]; exact room),
    (resetFrom_alike s rest c).records, resetFrom_asrun] at records
  have run := exec_deviceReset hready hcode
  generalize resetDone s rest = u at *
  exact ⟨_, run, records⟩

/-- Settles O42: the fields of every reset; the store and the alerts; a cue being decoded; the records. -/
theorem deviceResetClearsTheWork : Obligations.DeviceResetClearsTheWork :=
  ⟨deviceReset_clearsTheWork, deviceReset_clearsStoreAndAlerts, deviceReset_fallsInsideACue,
    deviceReset_recordsTheWork⟩

end Sys2Proof.Machine
end

section
/-! PROOFS. The frame check of a frame sent, the mix of a channel, and the moves of a boundary frame
(R2, R74 to R79). -/

namespace Sys2Proof.Machine

open Claim

variable {s : State}

/-! ### The check of a frame sent (R2) -/

theorem framesSent_passTheFrameCheck : Claim.framesPassTheFrameCheck := by
  intro slots aux rx
  refine judgeFrame_good rfl rfl ?_
  simp only [checkHolds, makeFrame]
  have zero (n : Byte) : n + (0 - n) = 0 := by bv_omega
  rw [beq_iff_eq, zero]

/-! ### Slots -/

theorem slotAt_set_same {v : Vector Sample 16} {i : Nat} (hi : i < 16) (w : Sample) :
    slotAt (v.setIfInBounds i w) i = w := by
  rw [slotAt, Vector.getElem?_setIfInBounds_self_of_lt hi]
  rfl

theorem slotAt_set_other {v : Vector Sample 16} {i j : Nat} (h : j ≠ i) (w : Sample) :
    slotAt (v.setIfInBounds i w) j = slotAt v j := by
  rw [slotAt, Vector.getElem?_setIfInBounds_ne h.symm]
  rfl

theorem saturate_range (x : Int) : -8388608 ≤ saturate x ∧ saturate x ≤ 8388607 := by
  unfold saturate
  omega

theorem sample_of_saturate (x : Int) : (BitVec.ofInt 24 (saturate x)).toInt = saturate x := by
  obtain ⟨low, high⟩ := saturate_range x
  rw [BitVec.toInt_ofInt]
  exact Int.bmod_eq_of_le (by omega) (by omega)

theorem saturate_eq (x : Int) : saturate x = max (-8388608) (min 8388607 x) := by
  unfold saturate
  omega

/-! ### The mix of a channel (R76 to R79) -/

theorem countSaturation_ch (c : Fin 4) (b : Bool) (s : State) : (countSaturation c b s).ch c =
    { s.ch c with saturation := if b then bump (s.ch c).saturation else (s.ch c).saturation } := by
  cases b with
  | false => rfl
  | true =>
    simp only [countSaturation, if_true]
    rw [raiseAlert_ch, State.ch_setCh_same]

theorem countSaturation_around (c : Fin 4) (b : Bool) (s : State) :
    (countSaturation c b s).around c = s.around c := by
  cases b with
  | false => rfl
  | true =>
    simp only [countSaturation, if_true]
    rw [raiseAlert_around, State.setCh_around]

theorem countSaturation_sounds (c : Fin 4) (b : Bool) (s : State) :
    (countSaturation c b s).voices = s.voices ∧ (countSaturation c b s).events = s.events := by
  cases b with
  | false => exact ⟨rfl, rfl⟩
  | true =>
    simp only [countSaturation, if_true]
    exact ⟨raiseAlert_voices _ _, raiseAlert_events _ _⟩

/-- The network word a channel's slot carries. -/
def networkWord (carried : Option (Vector Sample 16)) (i : Nat) : Int :=
  carried.elim 0 fun v => (slotAt v i).toInt

/-- A side of channel x mixed and put into the sample range. -/
def mixedSide (c : Fin 4) (x : Channel) (outs : List VoiceOut) (carried : Option (Vector Sample 16))
    (side slot : Nat) : Int :=
  saturate (roundMix (mixSum c x outs side (networkWord carried slot)))

theorem mixChannel_halted {c : Fin 4} (h : (s.ch c).state = .halted)
    (carried : Option (Vector Sample 16)) (slots : Vector Sample 16) :
    mixChannel c carried slots s = (slots, s) := if_pos h

variable {c : Fin 4} {carried : Option (Vector Sample 16)} {slots : Vector Sample 16}

theorem mixChannel_slots (h : (s.ch c).state ≠ .halted) : (mixChannel c carried slots s).1 =
    (slots.setIfInBounds (s.ch c).config.slotL
        (BitVec.ofInt 24 (mixedSide c (s.ch c) s.forming.outputs carried 0 (s.ch c).config.slotL))
      ).setIfInBounds (s.ch c).config.slotR
        (BitVec.ofInt 24 (mixedSide c (s.ch c) s.forming.outputs carried 1 (s.ch c).config.slotR)) := by
  unfold mixChannel
  rw [if_neg h]
  cases carried <;> rfl

/-- The state after a channel's mix: saturated sides counted, the running peaks extended. -/
theorem mixChannel_state (h : (s.ch c).state ≠ .halted) : ∃ b b' p,
    b = (mixedSide c (s.ch c) s.forming.outputs carried 0 (s.ch c).config.slotL !=
      roundMix (mixSum c (s.ch c) s.forming.outputs 0 (networkWord carried (s.ch c).config.slotL)))
    ∧ b' = (mixedSide c (s.ch c) s.forming.outputs carried 1 (s.ch c).config.slotR !=
      roundMix (mixSum c (s.ch c) s.forming.outputs 1 (networkWord carried (s.ch c).config.slotR)))
    ∧ (mixChannel c carried slots s).2 =
      (countSaturation c b' (countSaturation c b s)).setCh c
        { (countSaturation c b' (countSaturation c b s)).ch c with
          monitor := { ((countSaturation c b' (countSaturation c b s)).ch c).monitor with
            peaks := some p } } := by
  unfold mixChannel
  rw [if_neg h]
  cases carried <;> exact ⟨_, _, _, rfl, rfl, rfl⟩

theorem mixChannel_ch (h : (s.ch c).state ≠ .halted) : ∃ b b' p,
    b = (mixedSide c (s.ch c) s.forming.outputs carried 0 (s.ch c).config.slotL !=
      roundMix (mixSum c (s.ch c) s.forming.outputs 0 (networkWord carried (s.ch c).config.slotL)))
    ∧ b' = (mixedSide c (s.ch c) s.forming.outputs carried 1 (s.ch c).config.slotR !=
      roundMix (mixSum c (s.ch c) s.forming.outputs 1 (networkWord carried (s.ch c).config.slotR)))
    ∧ (mixChannel c carried slots s).2.ch c = { s.ch c with
      saturation := (fun n => if b' then bump n else n)
        (if b then bump (s.ch c).saturation else (s.ch c).saturation)
      monitor := { (s.ch c).monitor with peaks := some p } } := by
  obtain ⟨b, b', p, hb, hb', same⟩ := mixChannel_state (slots := slots) (carried := carried) h
  refine ⟨b, b', p, hb, hb', ?_⟩
  rw [same, State.ch_setCh_same, countSaturation_ch, countSaturation_ch]

/-- What the mix leaves, of any channel. -/
theorem mixChannel_around (c : Fin 4) (carried : Option (Vector Sample 16))
    (slots : Vector Sample 16) (s : State) : (mixChannel c carried slots s).2.around c = s.around c := by
  by_cases h : (s.ch c).state = .halted
  · rw [mixChannel_halted h]
  · obtain ⟨b, b', p, -, -, same⟩ := mixChannel_state (slots := slots) (carried := carried) h
    rw [same, State.setCh_around, countSaturation_around, countSaturation_around]

theorem mixChannel_sounds (c : Fin 4) (carried : Option (Vector Sample 16))
    (slots : Vector Sample 16) (s : State) : (mixChannel c carried slots s).2.voices = s.voices
      ∧ (mixChannel c carried slots s).2.events = s.events := by
  by_cases h : (s.ch c).state = .halted
  · rw [mixChannel_halted h]
    exact ⟨rfl, rfl⟩
  · obtain ⟨b, b', p, -, -, same⟩ := mixChannel_state (slots := slots) (carried := carried) h
    rw [same, State.setCh_voices, State.setCh_events, (countSaturation_sounds ..).1,
      (countSaturation_sounds ..).1, (countSaturation_sounds ..).2, (countSaturation_sounds ..).2]
    exact ⟨rfl, rfl⟩

theorem multiplier_scale (g : Nat) :
    (multiplier g : Int) =
      if g = 0 then (0 : Int) else (((256 + g % 256) * 2 ^ (g / 256) : Nat) : Int) := by
  unfold multiplier
  split <;> rfl

/-- Two counts of saturation, one per side put into the range. -/
theorem bump_sides (n : Nat) (b b' : Bool) (hn : n ≤ 65535) :
    (fun n => if b' then bump n else n) (if b then bump n else n) =
      min (n + (if b then 1 else 0) + if b' then 1 else 0) 65535 := by
  cases b <;> cases b' <;> simp [bump, Config.counterLimit] <;> omega

theorem mixChannel_addsVoicesAndNetwork : Claim.mixAddsVoicesAndNetwork := by
  intro c carried slots s x t scale network outs side l r inRange
  refine ⟨fun halted => mixChannel_halted halted carried slots, fun on hl hr apart few => ?_⟩
  have scaled (g : Nat) : (multiplier g : Int) = scale g := multiplier_scale g
  have left : mixSum c x s.forming.outputs 0 (network x.config.slotL) =
      (outs.map fun o => o.left * scale (o.code - x.duck)).sum
        + network x.config.slotL * scale x.gain := by
    rw [← scaled]
    refine congrArg (· + _) (congrArg List.sum (List.map_congr_left fun o _ => ?_))
    rw [← scaled]
    rfl
  have right : mixSum c x s.forming.outputs 1 (network x.config.slotR) =
      (outs.map fun o => o.right * scale (o.code - x.duck)).sum
        + network x.config.slotR * scale x.gain := by
    rw [← scaled]
    refine congrArg (· + _) (congrArg List.sum (List.map_congr_left fun o _ => ?_))
    rw [← scaled]
    rfl
  have hleft : mixedSide c x s.forming.outputs carried 0 x.config.slotL = inRange l := by
    rw [mixedSide, saturate_eq, roundMix, networkWord]
    exact congrArg (fun n => inRange ((n + 4194304) / 8388608)) left
  have hright : mixedSide c x s.forming.outputs carried 1 x.config.slotR = inRange r := by
    rw [mixedSide, saturate_eq, roundMix, networkWord]
    exact congrArg (fun n => inRange ((n + 4194304) / 8388608)) right
  have roundLeft : roundMix (mixSum c x s.forming.outputs 0 (networkWord carried x.config.slotL)) =
      l := congrArg (fun n => (n + 4194304) / 8388608) left
  have roundRight : roundMix (mixSum c x s.forming.outputs 1 (networkWord carried x.config.slotR)) =
      r := congrArg (fun n => (n + 4194304) / 8388608) right
  have written : t.1 = _ := mixChannel_slots on
  obtain ⟨b, b', p, hb, hb', channel⟩ := mixChannel_ch (slots := slots) (carried := carried) on
  have around := State.sameAround_of_eq (mixChannel_around c carried slots s)
  obtain ⟨voices, events⟩ := mixChannel_sounds c carried slots s
  refine ⟨?_, ?_, fun i hi hi' => ?_, ?_, ?_, ?_, around.ch, voices, events, around.forming, around.tx,
    around.clock, around.memory⟩
  · rw [written, slotAt_set_other apart, slotAt_set_same hl, ← hleft]
    exact sample_of_saturate _
  · rw [written, slotAt_set_same hr, ← hright]
    exact sample_of_saturate _
  · rw [written, slotAt_set_other hi', slotAt_set_other hi]
  · rw [channel]
    refine (bump_sides x.saturation b b' few).trans ?_
    rw [hb, hb', hleft, hright, roundLeft, roundRight]
    simp only [bne_iff_ne, ne_eq, ite_not]
  · rw [channel]
  · rw [channel]

/-! ### The moves of a boundary frame (R74, R75) -/

/-- Steps that each replace one channel, together. -/
theorem forChannels_replaces {f : Fin 4 → State → State} {x : Fin 4 → Channel}
    (hf : ∀ (c : Fin 4) (v : Vector Channel 4), (s.setChans v).ch c = s.ch c →
      f c (s.setChans v) = (s.setChans v).setCh c (x c)) :
    forChannels f s = s.setChans (Vector.ofFn x) := by
  have step (c : Fin 4) (v : Vector Channel 4) (h : v[c] = s.chans[c]) :
      f c (s.setChans v) = s.setChans (v.set c (x c)) := hf c v h
  have start : s = s.setChans s.chans := rfl
  have whole : forChannels f s = f 3 (f 2 (f 1 (f 0 s))) := rfl
  rw [whole]
  conv_lhs => rw [start]
  rw [step 0 _ rfl, step 1 _ (by simp), step 2 _ (by simp), step 3 _ (by simp)]
  congr 1
  ext i hi
  interval_cases i <;> simp

theorem State.setCh_own (s : State) (c : Fin 4) : s.setCh c (s.ch c) = s := by
  rw [State.setCh, State.ch, Vector.set_getElem_self]
  rfl

/-- Channel x after the gain's move. -/
def gainMoved (x : Channel) : Channel := { x with
  gain := if x.config.enable then moveToward x.gain x.gainTarget x.gainRate else x.gain }

/-- Channel x after the duck's move. -/
def duckMoved (live : Bool) (x : Channel) : Channel := { x with
  duck := moveToward x.duck (if live then x.config.duckDepth else 0) x.config.duckRate }

theorem moveGain_eq (c : Fin 4) (s : State) : moveGain c s = s.setCh c (gainMoved (s.ch c)) := by
  unfold moveGain gainMoved
  dsimp only
  split
  · rfl
  · exact (State.setCh_own s c).symm

theorem moveDuck_eq (c : Fin 4) (s : State) :
    moveDuck c s = s.setCh c (duckMoved (s.micLive c) (s.ch c)) := rfl

theorem finishJoin_waits (h : (s.ch c).state ≠ .joining) : finishJoin c s = s := by
  have waits : (s.ch c).joinDone = false := by
    rw [Channel.joinDone, beq_eq_false_iff_ne.2 h]
    rfl
  rw [finishJoin, waits]
  exact if_neg Bool.false_ne_true

theorem finishReturn_elsewhere (h : (s.ch c).state ≠ .emergency) : finishReturn c s = s :=
  if_neg fun both => h both.1

/-- The gain's move of a channel that completes nothing. -/
theorem gainStep_eq (hj : (s.ch c).state ≠ .joining) (he : (s.ch c).state ≠ .emergency) :
    finishReturn c (finishJoin c (moveGain c s)) = s.setCh c (gainMoved (s.ch c)) := by
  have same : (s.setCh c (gainMoved (s.ch c))).ch c = gainMoved (s.ch c) := State.ch_setCh_same ..
  rw [moveGain_eq, finishJoin_waits, finishReturn_elsewhere]
  · rw [same]
    exact he
  · rw [same]
    exact hj

theorem ch_setChans_ofFn (s : State) (x : Fin 4 → Channel) (c : Fin 4) :
    (s.setChans (Vector.ofFn x)).ch c = x c := by
  rw [State.ch, State.setChans]
  simp

theorem boundaryMoves_elsewhere (h : s.nextAC.toNat % 32 ≠ 0) : boundaryMoves s = s := by
  rw [boundaryMoves, isBoundary, beq_eq_false_iff_ne.2 h]
  exact if_neg Bool.false_ne_true

/-- The moves of a boundary frame in which no join or return completes. -/
theorem boundaryMoves_eq (h : s.nextAC.toNat % 32 = 0)
    (still : ∀ c : Fin 4, (s.ch c).state ≠ .joining ∧ (s.ch c).state ≠ .emergency) :
    boundaryMoves s = s.setChans (Vector.ofFn fun c =>
      duckMoved (s.micLive c) (gainMoved (s.ch c))) := by
  have gains : forChannels (fun c t => finishReturn c (finishJoin c (moveGain c t))) s =
      s.setChans (Vector.ofFn fun c => gainMoved (s.ch c)) :=
    forChannels_replaces fun c v own => by
      rw [gainStep_eq (by rw [own]; exact (still c).1) (by rw [own]; exact (still c).2), own]
  have ducks : forChannels moveDuck (s.setChans (Vector.ofFn fun c => gainMoved (s.ch c))) =
      (s.setChans (Vector.ofFn fun c => gainMoved (s.ch c))).setChans (Vector.ofFn fun c =>
        duckMoved (s.micLive c) (gainMoved (s.ch c))) :=
    forChannels_replaces fun c v own => by
      rw [moveDuck_eq, own, ch_setChans_ofFn]
      rfl
  rw [boundaryMoves, isBoundary, beq_iff_eq.2 h, if_pos rfl, gains, ducks]
  rfl

theorem micLive_iff (s : State) (c : Fin 4) : s.micLive c = true ↔
    ∃ g : Fin 8, (s.gpiLine g).fn = .micLive c ∧ (s.gpiLine g).stable = true := by
  have all (g : Fin 8) : g ∈ allGpi := by
    revert g
    decide
  simp only [State.micLive, List.any_eq_true, GpiLine.holdsMic, Bool.and_eq_true, beq_iff_eq, all,
    true_and]
  exact exists_congr fun g => and_comm

theorem gainAndDuck_moveAtBoundaries : Claim.gainAndDuckMoveAtBoundaries := by
  intro s toward
  refine ⟨boundaryMoves_elsewhere, fun h still => (boundaryMoves_eq h still).trans ?_⟩
  refine congrArg s.setChans (congrArg Vector.ofFn (funext fun c => ?_))
  simp only [duckMoved, gainMoved, micLive_iff, moveToward, toward]

end Sys2Proof.Machine
end

section
/-! PROOFS. The frame that is formed when nothing falls due in it: what is done before the mix, the mix of
the four channels, and the steps after it (R7, R8, R50, R74 to R79, R87). -/

namespace Sys2Proof.Machine

open Claim

variable {s t : State}

/-! ### Nothing due before the voices -/

/-- Nothing falls due in the next frame, which is not begun. -/
structure State.Uneventful (s : State) : Prop where
  settled : s.settled = true
  forming : s.forming = .start
  events : s.events = []
  inbox : s.cmd.inbox = []
  build : s.cmd.build = []
  assembly : ∀ a ∈ s.cmd.assembly, a.deadline ≠ s.nextAC
  preroll : ∀ c, ∀ r ∈ (s.ch c).queue, r.state = .preroll → r.start ≠ some s.nextAC
  pending : ∀ c, ∀ r ∈ (s.ch c).queue, r.state = .pending → r.expiry = none
    ∧ waitsForTime r.trigger = false
  onAir : ∀ c, ∀ r ∈ (s.ch c).queue, r.state = .onAir → ∀ p ∈ r.plan, p.ret ≠ s.clock.ac

theorem forChannels_id {f : Fin 4 → State → State} (h : ∀ c, f c s = s) : forChannels f s = s := by
  have whole : forChannels f s = f 3 (f 2 (f 1 (f 0 s))) := rfl
  rw [whole, h, h, h, h]

theorem mem_of_flight {c : Fin 4} {r : BreakRecord} (h : s.flight c = some r) :
    r ∈ (s.ch c).queue := List.mem_of_find?_eq_some h

theorem mem_of_record {c : Fin 4} {n : Nat} {r : BreakRecord} (h : s.record c n = some r) :
    r ∈ (s.ch c).queue := List.mem_of_find?_eq_some h

theorem State.Uneventful.joinDue (h : s.Uneventful) (c : Fin 4) : s.joinDue c = false := by
  obtain none_ | ⟨r, hr⟩ := Option.eq_none_or_eq_some (s.flight c)
  · rw [State.joinDue, none_]
  · have onAir := h.onAir c r (mem_of_flight hr)
    simp only [State.joinDue, hr]
    obtain noPlan | ⟨p, hp⟩ := Option.eq_none_or_eq_some r.plan
    · simp [noPlan]
    · by_cases air : r.state = .onAir
      · simp [hp, onAir air p hp]
      · simp [air]

theorem queueReplies_none (h : s.cmd.build = []) : queueReplies s = s := by
  have same : { s.cmd with build := [], replies := s.cmd.replies } = s.cmd := by
    rw [← h]
  rw [queueReplies, h]
  simp only [List.drop_nil, List.take_nil, List.append_nil]
  rw [same]
  rfl

theorem State.Uneventful.openFrame (h : s.Uneventful) :
    openFrame s = s.setForming { Forming.start with opened := true } := by
  have joins : forChannels joinIfDue s = s :=
    forChannels_id fun c => by rw [joinIfDue, h.joinDue c]; exact if_neg Bool.false_ne_true
  have delivered : deliverAll s = s := by
    rw [deliverAll, h.events]
    rfl
  have closed : ¬ s.forming.opened = true := by
    rw [h.forming]
    exact Bool.false_ne_true
  rw [Machine.openFrame, if_neg closed, settle_of_settled h.settled, joins]
  dsimp only
  rw [delivered, takeAllRouted_of_nil h.inbox, queueReplies_none h.build, h.forming]

theorem openDue_of_started {c : Fin 4} (hq : (t.ch c).queue = (s.ch c).queue)
    (ha : t.nextAC = s.nextAC)
    (h : ∀ r ∈ (s.ch c).queue, r.state = .preroll → r.start ≠ some s.nextAC) :
    t.openDue c = false := by
  have flight : t.flight c = s.flight c := by rw [State.flight, hq, State.flight]
  rw [State.openDue, flight, ha]
  obtain none_ | ⟨r, hr⟩ := Option.eq_none_or_eq_some (s.flight c)
  · rw [none_]
  · by_cases pre : r.state = .preroll
    · simp [hr, h r (mem_of_flight hr) pre]
    · simp [hr, pre]

theorem State.Uneventful.openBreaks (h : s.Uneventful) :
    openBreaks s = s.setForming { Forming.start with opened := true } := by
  rw [Machine.openBreaks, h.openFrame, openDueBreaks]
  refine forChannels_id fun c => ?_
  have due (x : Forming) : (s.setForming x).openDue c = false :=
    openDue_of_started (s := s) rfl rfl (h.preroll c)
  rw [openBreak, due]
  exact if_neg Bool.false_ne_true

theorem expireAll_none {c : Fin 4} (h : ∀ r ∈ (s.ch c).queue, r.state = .pending → r.expiry = none) :
    expireAll c s = s := by
  have each (n : Nat) : expireRecord c n s = s := by
    have due : s.expiryDue c n = false := by
      obtain none_ | ⟨r, hr⟩ := Option.eq_none_or_eq_some (s.record c n)
      · rw [State.expiryDue, none_]
      · by_cases pend : r.state = .pending
        · simp [State.expiryDue, hr, h r (mem_of_record hr) pend]
        · simp [State.expiryDue, hr, pend]
    rw [expireRecord, due]
    exact if_neg Bool.false_ne_true
  unfold expireAll
  generalize (s.ch c).queue.map (fun r => r.number) = l
  induction l with
  | nil => rfl
  | cons n l ih => rw [List.foldl_cons, each, ih]

theorem judgeTimeRecord_none {c : Fin 4} (n : Nat)
    (h : ∀ r ∈ (s.ch c).queue, r.state = .pending → waitsForTime r.trigger = false) :
    judgeTimeRecord c n s = s := by
  unfold judgeTimeRecord
  split
  · rfl
  · next r hr =>
    split
    · next pend time => exact absurd (h r (mem_of_record hr) pend) (by rw [time, waitsForTime]; decide)
    · rfl

theorem judgeTime_none {c : Fin 4}
    (h : ∀ r ∈ (s.ch c).queue, r.state = .pending → waitsForTime r.trigger = false)
    (fresh : s.forming.timeJudged.contains c = false) : judgeTime c s =
      s.setForming { s.forming with timeJudged := c :: s.forming.timeJudged } := by
  have each : ∀ l : List Nat, l.foldl (fun t n => judgeTimeRecord c n t) s = s := by
    intro l
    induction l with
    | nil => rfl
    | cons n l ih => rw [List.foldl_cons, judgeTimeRecord_none n h, ih]
  rw [judgeTime, fresh, each]
  exact if_neg Bool.false_ne_true

/-- The next frame opened and its moments passed. -/
def Forming.ready : Forming :=
  { Forming.start with opened := true, timeJudged := [3, 2, 1, 0] }

theorem State.Uneventful.reachMoments (h : s.Uneventful) :
    Machine.reachMoments (Machine.openBreaks s) = s.setForming .ready := by
  have pending (c : Fin 4) (x : Forming) : ∀ r ∈ ((s.setForming x).ch c).queue,
      r.state = .pending → r.expiry = none ∧ waitsForTime r.trigger = false := h.pending c
  have expired (x : Forming) : forChannels expireAll (s.setForming x) = s.setForming x :=
    forChannels_id fun c => expireAll_none fun r hr pend => (pending c x r hr pend).1
  have assembly (x : Forming) : timeoutAssembly (s.setForming x) = s.setForming x := by
    obtain none_ | ⟨a, ha⟩ := Option.eq_none_or_eq_some s.cmd.assembly
    · have none_' : (s.setForming x).cmd.assembly = none := none_
      rw [timeoutAssembly, none_']
    · have ha' : (s.setForming x).cmd.assembly = some a := ha
      rw [timeoutAssembly, ha']
      exact if_neg (h.assembly a ha)
  have judged (c : Fin 4) (x : Forming) (fresh : x.timeJudged.contains c = false) :
      judgeTime c (s.setForming x) =
        s.setForming { x with timeJudged := c :: x.timeJudged } :=
    judgeTime_none (fun r hr pend => (pending c x r hr pend).2) fresh
  have whole (u : State) : forChannels judgeTime u =
      judgeTime 3 (judgeTime 2 (judgeTime 1 (judgeTime 0 u))) := rfl
  rw [h.openBreaks, Machine.reachMoments, assembly, expired, whole, judged 0 _ rfl, judged 1 _ rfl,
    judged 2 _ rfl, judged 3 _ rfl]
  rfl

/-! ### The voices (R50) -/

/-- What PLAYING voice v gives in a frame. -/
def State.soundOf (s : State) (v : Fin 16) : VoiceOut :=
  ⟨v, ((s.voice v).owner.map fun o => o.channel).getD 0,
    s.voiceOutput (s.voice v) (s.entry ((s.voice v).clip.getD 0)) 0,
    s.voiceOutput (s.voice v) (s.entry ((s.voice v).clip.getD 0)) 1, (s.voice v).code⟩

/-- Voice v after a frame in which it neither starts nor ends. -/
def State.movedOn (s : State) (v : Fin 16) : Voice :=
  if (s.voice v).state = .playing then
    (s.voice v).advance (s.entry ((s.voice v).clip.getD 0)).length
  else s.voice v

theorem atBoundary_steady {x : Voice} {a : AC} (h : a.toNat % 32 = 0 → x.staged = none
    ∧ ∀ r ∈ x.ramp, x.code = r.target ∧ r.stop = false) : x.atBoundary a = (x, false) := by
  by_cases boundary : a.toNat % 32 = 0
  · obtain ⟨staged, ramp⟩ := h boundary
    have applied : x.applyStaged = x := by
      rw [Voice.applyStaged, staged]
    have at_ : isBoundary a = true := beq_iff_eq.2 boundary
    rw [Voice.atBoundary, if_pos at_, applied]
    obtain noRamp | ⟨r, hr⟩ := Option.eq_none_or_eq_some x.ramp
    · simp only [noRamp]
    · obtain ⟨code, goOn⟩ := ramp r hr
      have stays : moveToward x.code r.target r.rate = x.code := by
        rw [moveToward, code, if_neg (Nat.lt_irrefl _)]
        omega
      simp only [hr, stays, goOn, Bool.false_and]
      rw [← hr]
      exact ite_self (x, false)
  · have off : ¬ isBoundary a = true := fun at_ => boundary (beq_iff_eq.1 at_)
    rw [Voice.atBoundary, if_neg off]

theorem State.setVoice_own (s : State) (v : Fin 16) : s.setVoice v (s.voice v) = s := by
  rw [State.setVoice, State.voice, Vector.set_getElem_self]
  rfl

theorem playVoice_steady {v : Fin 16} (h : voiceSteady t v)
    (playing : (t.voice v).state = .playing) : playVoice v t =
      (t.setForming { t.forming with outputs := t.forming.outputs ++ [t.soundOf v] }).setVoice v
        (t.movedOn v) := by
  obtain ⟨-, sounding⟩ := h
  obtain ⟨within, code⟩ := sounding playing
  have goesOn : (t.voice v).ranOff (t.entry ((t.voice v).clip.getD 0)).length = false := by
    rw [Voice.ranOff]
    cases loop : (t.voice v).loop with
    | none => simpa using within loop
    | some l => rfl
  unfold playVoice
  dsimp only
  rw [atBoundary_steady code]
  dsimp only
  rw [State.setVoice_own, goesOn, State.movedOn, if_pos playing, State.soundOf]
  cases (t.voice v).owner <;> rfl

theorem handleVoice_steady {v : Fin 16} (h : voiceSteady t v) : handleVoice v t =
    if (t.voice v).state = .playing then
      (t.setForming { t.forming with outputs := t.forming.outputs ++ [t.soundOf v] }).setVoice v
        (t.movedOn v)
    else t := by
  have waits : t.startDue v = false := by
    rw [State.startDue]
    by_cases primed : (t.voice v).state = .primed
    · have later := h.1 primed
      cases start : (t.voice v).startFrame with
      | none => simp
      | some f =>
        rw [start] at later
        simpa using fun _ => later
    · simp [primed]
  rw [handleVoice, waits]
  by_cases playing : (t.voice v).state = .playing
  · rw [if_pos playing]
    exact (if_pos playing).trans (playVoice_steady h playing)
  · rw [if_neg playing]
    exact if_neg playing

/-- What a voice's handling reads of a state it is alike in. -/
theorem voiceSteady_alike {u : State} {v : Fin 16} (hv : u.voice v = t.voice v)
    (ha : u.nextAC = t.nextAC) (he : ∀ n, u.entry n = t.entry n) (h : voiceSteady t v) :
    voiceSteady u v := by
  simp only [voiceSteady, hv, ha, he]
  exact h

theorem soundOf_alike {u : State} {v : Fin 16} (hv : u.voice v = t.voice v)
    (hm : u.memory = t.memory) (hs : u.store = t.store) : u.soundOf v = t.soundOf v := by
  have output (x : Voice) (e : DirEntry) (side : Nat) :
      u.voiceOutput x e side = t.voiceOutput x e side := by
    simp only [State.voiceOutput, State.clipSample, State.readWord, State.wordAddress, hm, hs]
  rw [State.soundOf, State.soundOf, hv, entry_of_store hs, output, output]

theorem movedOn_alike {u : State} {v : Fin 16} (hv : u.voice v = t.voice v)
    (hs : u.store = t.store) : u.movedOn v = t.movedOn v := by
  rw [State.movedOn, State.movedOn, hv, entry_of_store hs]

/-- State u is t with the voices of l handled: those PLAYING have moved on and given their outputs. -/
structure State.Sounded (t : State) (l : List (Fin 16)) (u : State) : Prop where
  beside : u.besidePlay = t.besidePlay
  events : u.events = t.events
  opened : u.forming.opened = t.forming.opened
  sampled : u.forming.sampled = t.forming.sampled
  outputs : u.forming.outputs = t.forming.outputs
    ++ (l.filter fun v => (t.voice v).state == .playing).map t.soundOf
  voice : ∀ v, u.voice v = if v ∈ l then t.movedOn v else t.voice v

/-- The voice in turn handled, with the turn passed on. -/
def handleTurn (v : Fin 16) (t : State) : State :=
  (handleVoice v t).setForming { (handleVoice v t).forming with cursor := v.val + 1 }

theorem handleTurn_steady {v : Fin 16} (h : voiceSteady t v) : t.Sounded [v] (handleTurn v t)
    ∧ (handleTurn v t).forming.cursor = v.val + 1 := by
  have beside : (handleTurn v t).besidePlay = t.besidePlay := handleVoice_besidePlay v t
  by_cases playing : (t.voice v).state = .playing
  · have handled := (handleVoice_steady h).trans (if_pos playing)
    refine ⟨⟨beside, ?_, ?_, ?_, ?_, fun w => ?_⟩, rfl⟩
    · rw [handleTurn, handled]; rfl
    · rw [handleTurn, handled]; rfl
    · rw [handleTurn, handled]; rfl
    · rw [handleTurn, handled, List.filter_cons_of_pos (by simpa using playing)]
      rfl
    · rw [handleTurn, handled, State.setForming_voice, State.voice_setVoice, State.setForming_voice]
      simp only [List.mem_singleton]
      split
      · next hw => rw [hw]
      · rfl
  · have handled := (handleVoice_steady h).trans (if_neg playing)
    refine ⟨⟨beside, ?_, ?_, ?_, ?_, fun w => ?_⟩, rfl⟩
    · rw [handleTurn, handled]; rfl
    · rw [handleTurn, handled]; rfl
    · rw [handleTurn, handled]; rfl
    · rw [handleTurn, handled, List.filter_cons_of_neg (by simpa using playing)]
      exact (List.append_nil _).symm
    · rw [handleTurn, handled, State.setForming_voice]
      split
      · next hw =>
        rw [List.mem_singleton.1 hw, State.movedOn, if_neg playing]
      · rfl

/-- What besidePlay says of the fields a voice reads. -/
theorem besidePlay_read {u : State} (h : u.besidePlay = t.besidePlay) :
    u.clock = t.clock ∧ u.memory = t.memory ∧ u.store = t.store := by
  simp only [State.besidePlay, Prod.mk.injEq] at h
  exact ⟨h.1.2.2.2.1, h.1.2.2.2.2.2.1, h.1.2.2.2.2.2.2.1⟩

theorem State.Sounded.cons {v : Fin 16} {l : List (Fin 16)} {u w : State} (fresh : v ∉ l)
    (h : t.Sounded [v] u) (h' : u.Sounded l w) : t.Sounded (v :: l) w := by
  obtain ⟨-, memory, store⟩ := besidePlay_read h.beside
  have same (x : Fin 16) (hx : x ∈ l) : u.voice x = t.voice x := by
    rw [h.voice, if_neg]
    intro hv
    exact fresh (List.mem_singleton.1 hv ▸ hx)
  refine ⟨h'.beside.trans h.beside, h'.events.trans h.events, h'.opened.trans h.opened,
    h'.sampled.trans h.sampled, ?_, fun x => ?_⟩
  · have rest : (l.filter fun x => (u.voice x).state == .playing).map u.soundOf =
        (l.filter fun x => (t.voice x).state == .playing).map t.soundOf := by
      rw [List.filter_congr fun x hx => by rw [same x hx]]
      exact List.map_congr_left fun x hx =>
        soundOf_alike (same x (List.mem_filter.1 hx).1) memory store
    rw [h'.outputs, h.outputs, rest, List.append_assoc, ← List.map_append, ← List.filter_append,
      List.singleton_append]
  · rw [h'.voice]
    by_cases hx : x ∈ l
    · rw [if_pos hx, if_pos (List.mem_cons_of_mem v hx), movedOn_alike (same x hx) store]
    · rw [if_neg hx, h.voice]
      simp only [List.mem_cons, List.not_mem_nil, hx, or_false]

/-- The voices handled one after the other, each in its turn. -/
theorem handleThrough_sounded {l : List (Fin 16)} (sorted : l.Pairwise fun v w => v.val < w.val)
    (cursor : ∀ v ∈ l, t.forming.cursor ≤ v.val) (steady : ∀ v ∈ l, voiceSteady t v) :
    t.Sounded l (l.foldl (fun t v =>
      if t.forming.cursor ≤ v.val ∧ v.val ≤ 15 then handleTurn v t else t) t) := by
  induction l generalizing t with
  | nil => exact ⟨rfl, rfl, rfl, rfl, (List.append_nil _).symm, fun v => (if_neg List.not_mem_nil).symm⟩
  | cons v l ih =>
    obtain ⟨ahead, sorted⟩ := List.pairwise_cons.1 sorted
    have turn : t.forming.cursor ≤ v.val ∧ v.val ≤ 15 :=
      ⟨cursor v List.mem_cons_self, by omega⟩
    have fresh : v ∉ l := fun hv => Nat.lt_irrefl _ (ahead v hv)
    obtain ⟨first, passed⟩ := handleTurn_steady (steady v List.mem_cons_self)
    obtain ⟨clock, memory, store⟩ := besidePlay_read first.beside
    rw [List.foldl_cons, if_pos turn]
    refine first.cons fresh (ih sorted (fun w hw => ?_) fun w hw => ?_)
    · rw [passed]
      exact ahead w hw
    · refine voiceSteady_alike ?_ ?_ (entry_of_store store) (steady w (List.mem_cons_of_mem v hw))
      · rw [first.voice, if_neg]
        intro hv
        exact fresh (List.mem_singleton.1 hv ▸ hw)
      · rw [State.nextAC, clock, State.nextAC]

theorem handleThrough_steady (start : t.forming.cursor = 0) (steady : ∀ v, voiceSteady t v) :
    t.Sounded allVoices (handleThrough 15 t) :=
  handleThrough_sounded (l := allVoices) (by decide) (fun v _ => by omega) fun v _ => steady v

/-! ### The mix of the four channels (R77 to R79) -/

/-- What the mix of some channels makes of state u: nothing but their counts and peaks. -/
structure State.Mixed (u w : State) : Prop where
  besideWork : w.besideWork = u.besideWork
  voices : w.voices = u.voices
  events : w.events = u.events
  channel : ∀ c, ∃ n p, w.ch c = { u.ch c with
    saturation := n, monitor := { (u.ch c).monitor with peaks := p } }

theorem State.Mixed.refl (u : State) : u.Mixed u :=
  ⟨rfl, rfl, rfl, fun c => ⟨(u.ch c).saturation, (u.ch c).monitor.peaks, rfl⟩⟩

theorem State.Mixed.trans {u v w : State} (h : u.Mixed v) (h' : v.Mixed w) : u.Mixed w := by
  refine ⟨h'.besideWork.trans h.besideWork, h'.voices.trans h.voices, h'.events.trans h.events,
    fun c => ?_⟩
  obtain ⟨n, p, first⟩ := h.channel c
  obtain ⟨m, q, second⟩ := h'.channel c
  exact ⟨m, q, by rw [second, first]⟩

theorem mixChannel_mixed (c : Fin 4) (carried : Option (Vector Sample 16))
    (slots : Vector Sample 16) (u : State) : u.Mixed (mixChannel c carried slots u).2 := by
  have around := mixChannel_around c carried slots u
  obtain ⟨voices, events⟩ := mixChannel_sounds c carried slots u
  refine ⟨besideWork_of_around around, voices, events, fun d => ?_⟩
  by_cases hd : d = c
  · subst hd
    by_cases h : (u.ch d).state = .halted
    · rw [mixChannel_halted h]
      exact ⟨_, _, rfl⟩
    · obtain ⟨_, _, p, -, -, same⟩ := mixChannel_ch (slots := slots) (carried := carried) h
      exact ⟨_, some p, same⟩
  · rw [(State.sameAround_of_eq around).ch d hd]
    exact ⟨_, _, rfl⟩

/-- A slot of a channel. -/
def Channel.slots (x : Channel) (k : Nat) : Prop := k = x.config.slotL ∨ k = x.config.slotR

theorem mixChannel_apart {c : Fin 4} {carried : Option (Vector Sample 16)} {slots : Vector Sample 16}
    {u : State} {k : Nat} (h : (u.ch c).state ≠ .halted → ¬ (u.ch c).slots k) :
    slotAt (mixChannel c carried slots u).1 k = slotAt slots k := by
  by_cases halted : (u.ch c).state = .halted
  · rw [mixChannel_halted halted]
  · have apart := h halted
    rw [mixChannel_slots halted, slotAt_set_other fun hk => apart (.inr hk),
      slotAt_set_other fun hk => apart (.inl hk)]

/-- The mixes of the channels of a list, one after the other. -/
def mixSome (carried : Option (Vector Sample 16)) (l : List (Fin 4))
    (p : Vector Sample 16 × State) : Vector Sample 16 × State :=
  l.foldl (fun p c => mixChannel c carried p.1 p.2) p

theorem mixSome_mixed (carried : Option (Vector Sample 16)) (l : List (Fin 4))
    (p : Vector Sample 16 × State) : p.2.Mixed (mixSome carried l p).2 := by
  induction l generalizing p with
  | nil => exact State.Mixed.refl p.2
  | cons c l ih => exact (mixChannel_mixed c carried p.1 p.2).trans (ih _)

theorem State.Mixed.kept {u w : State} (h : u.Mixed w) (c : Fin 4) :
    (w.ch c).state = (u.ch c).state ∧ (w.ch c).config = (u.ch c).config
      ∧ (w.ch c).gain = (u.ch c).gain ∧ (w.ch c).duck = (u.ch c).duck := by
  obtain ⟨n, p, same⟩ := h.channel c
  rw [same]
  exact ⟨rfl, rfl, rfl, rfl⟩

theorem mixSome_apart {carried : Option (Vector Sample 16)} {l : List (Fin 4)}
    {p : Vector Sample 16 × State} {k : Nat}
    (h : ∀ c ∈ l, (p.2.ch c).state ≠ .halted → ¬ (p.2.ch c).slots k) :
    slotAt (mixSome carried l p).1 k = slotAt p.1 k := by
  induction l generalizing p with
  | nil => rfl
  | cons c l ih =>
    have first := mixChannel_apart (carried := carried) (slots := p.1) (h c List.mem_cons_self)
    refine Eq.trans (ih fun d hd => ?_) first
    obtain ⟨state, config, -, -⟩ := (mixChannel_mixed c carried p.1 p.2).kept d
    rw [state, Channel.slots, config]
    exact h d (List.mem_cons_of_mem c hd)

theorem mixedSide_of_kept {u w : State} (h : u.Mixed w) (c : Fin 4) (outs : List VoiceOut)
    (carried : Option (Vector Sample 16)) (side slot : Nat) :
    mixedSide c (w.ch c) outs carried side slot = mixedSide c (u.ch c) outs carried side slot := by
  obtain ⟨-, -, gain, duck⟩ := h.kept c
  rw [mixedSide, mixedSide, mixSum, mixSum, gain, duck]

theorem State.Mixed.forming {u w : State} (h : u.Mixed w) : w.forming = u.forming := by
  have beside := h.besideWork
  simp only [State.besideWork, Prod.mk.injEq] at beside
  obtain ⟨-, -, -, -, -, forming, -⟩ := beside
  exact forming

/-- The two slots of a channel that is mixed, when no other channel has them. -/
theorem mixSome_slots {carried : Option (Vector Sample 16)} {l : List (Fin 4)} (hl : l.Nodup)
    {p : Vector Sample 16 × State} {c : Fin 4} (hc : c ∈ l) (on : (p.2.ch c).state ≠ .halted)
    (inL : (p.2.ch c).config.slotL < 16) (inR : (p.2.ch c).config.slotR < 16)
    (apart : (p.2.ch c).config.slotL ≠ (p.2.ch c).config.slotR)
    (others : ∀ d, d ≠ c → (p.2.ch d).state ≠ .halted → ∀ k, (p.2.ch c).slots k →
      ¬ (p.2.ch d).slots k) :
    (slotAt (mixSome carried l p).1 (p.2.ch c).config.slotL).toInt =
        mixedSide c (p.2.ch c) p.2.forming.outputs carried 0 (p.2.ch c).config.slotL
      ∧ (slotAt (mixSome carried l p).1 (p.2.ch c).config.slotR).toInt =
        mixedSide c (p.2.ch c) p.2.forming.outputs carried 1 (p.2.ch c).config.slotR := by
  induction l generalizing p with
  | nil => exact absurd hc List.not_mem_nil
  | cons d l ih =>
    obtain ⟨fresh, hl⟩ := List.nodup_cons.1 hl
    have mixed := mixChannel_mixed d carried p.1 p.2
    by_cases hd : d = c
    · subst hd
      have later (k : Nat) (hk : (p.2.ch d).slots k) :
          slotAt (mixSome carried l (mixChannel d carried p.1 p.2)).1 k =
            slotAt (mixChannel d carried p.1 p.2).1 k := by
        refine mixSome_apart fun e he => ?_
        obtain ⟨state, config, -, -⟩ := mixed.kept e
        rw [state, Channel.slots, config]
        exact fun one => others e (fun same => fresh (same ▸ he)) one k hk
      have whole : mixSome carried (d :: l) p = mixSome carried l (mixChannel d carried p.1 p.2) := rfl
      rw [whole, later _ (.inl rfl), later _ (.inr rfl), mixChannel_slots on,
        slotAt_set_other apart, slotAt_set_same inL, slotAt_set_same inR]
      exact ⟨sample_of_saturate _, sample_of_saturate _⟩
    · have hc' : c ∈ l := (List.mem_cons.1 hc).resolve_left fun same => hd same.symm
      obtain ⟨state, config, -, -⟩ := mixed.kept c
      have rest := ih hl (p := mixChannel d carried p.1 p.2) hc' (by rw [state]; exact on)
        (by rw [config]; exact inL) (by rw [config]; exact inR) (by rw [config]; exact apart)
        fun e he one k hk => by
          obtain ⟨state', config', -, -⟩ := mixed.kept e
          rw [Channel.slots, config']
          rw [state'] at one
          rw [Channel.slots, config] at hk
          exact others e he one k hk
      rw [config, mixedSide_of_kept mixed, mixedSide_of_kept mixed, mixed.forming] at rest
      exact rest

end Sys2Proof.Machine
end

section
/-! PROOFS. The three egress frame rows, at rest and with voices that play (R7, R8, R18, R50, R74 to R79). -/

namespace Sys2Proof.Machine

open Claim

variable {s t : State}

/-! ### What the steps after a frame leave -/

/-- The links, the clock, the cue counters, clip memory and the commands that wait. -/
def State.besideFrame (s : State) := (s.rx, s.lane, s.tx, s.clock, s.cues, s.memory, s.pending)

theorem besideFrame_of_work (h : t.besideWork = s.besideWork) : t.besideFrame = s.besideFrame := by
  simp only [State.besideWork, Prod.mk.injEq] at h
  obtain ⟨⟨rx, lane, tx, clock, cues, memory, -⟩, -, -, -, -, -, pending⟩ := h
  rw [State.besideFrame, rx, lane, tx, clock, cues, memory, pending, State.besideFrame]

theorem besideFrame_of_around {c : Fin 4} (h : t.around c = s.around c) :
    t.besideFrame = s.besideFrame := besideFrame_of_work (besideWork_of_around h)

theorem besideFrame_of_play (h : t.besidePlay = s.besidePlay) : t.besideFrame = s.besideFrame := by
  simp only [State.besidePlay, Prod.mk.injEq] at h
  obtain ⟨⟨rx, lane, tx, clock, cues, memory, -⟩, -, -, -, -, -, -, pending⟩ := h
  rw [State.besideFrame, rx, lane, tx, clock, cues, memory, pending, State.besideFrame]

theorem openDueBreaks_besideFrame (s : State) : (openDueBreaks s).besideFrame = s.besideFrame :=
  forChannels_keeps State.besideFrame _ (fun _ _ => besideFrame_of_around openBreak_around) s

theorem stopForJoin_besideFrame (c : Fin 4) (n : Nat) (v : Fin 16) (s : State) :
    (stopForJoin c n v s).besideFrame = s.besideFrame :=
  besideFrame_of_around (stopForJoin_around n v)

theorem cancelStarted_around (c : Fin 4) (n : Nat) (v : Fin 16) (s : State) :
    (cancelStarted c n v s).around c = s.around c := by
  unfold cancelStarted
  dsimp only
  split
  · exact (modParts_around n _).trans (cancelVoice_around v)
  · rfl

theorem joinAround_besideFrame (o : Config.StartOrder) (c : Fin 4) (n : Nat) (v : Fin 16)
    (s : State) : (joinAround o c n v s).besideFrame = s.besideFrame := by
  have opened := openDueBreaks_besideFrame s
  have started (u : State) : (startThrough v u).besideFrame = u.besideFrame :=
    besideFrame_of_play (startThrough_besidePlay v u)
  have handled (u : State) : (handleThrough v.val u).besideFrame = u.besideFrame :=
    besideFrame_of_play (handleThrough_besidePlay v.val u)
  have cancelled (u : State) : (cancelStarted c n v u).besideFrame = u.besideFrame :=
    besideFrame_of_around (cancelStarted_around c n v u)
  cases o with
  | never => rw [joinAround, stopForJoin_besideFrame]
  | first => rw [joinAround, stopForJoin_besideFrame, started, opened]
  | outputFirst => rw [joinAround, stopForJoin_besideFrame, handled, opened]
  | between => rw [joinAround, cancelled, started, opened]
  | outputBetween => rw [joinAround, cancelled, handled, opened]

theorem joinVoice_besideFrame (c : Fin 4) (n : Nat) (v : Fin 16) (s : State) :
    (joinVoice c n v s).besideFrame = s.besideFrame := by
  unfold joinVoice
  split
  · exact joinAround_besideFrame _ c n v (drawFree s)
  · exact stopForJoin_besideFrame c n v s

theorem joinBreak_besideFrame (c : Fin 4) (s : State) :
    (joinBreak c s).besideFrame = s.besideFrame := by
  unfold joinBreak
  split
  · rfl
  · next r _ =>
    split
    · rfl
    · have joined (l : List (Fin 16)) (u : State) :
          (l.foldl (fun t v => joinVoice c r.number v t) u).besideFrame = u.besideFrame :=
        foldl_keeps State.besideFrame _ (fun t v => joinVoice_besideFrame c r.number v t) l u
      dsimp only
      rw [besideFrame_of_around checkBreakClear_around, besideFrame_of_around (modParts_around ..),
        joined, besideFrame_of_around requestJoin_around, besideFrame_of_around (modRecord_around ..)]

theorem abortBreak_besideFrame (c : Fin 4) (s : State) :
    (abortBreak c s).2.besideFrame = s.besideFrame := by
  have withdrawn := besideFrame_of_around (withdrawBreak_around (c := c) (s := s) .abort)
  have moved (n : Nat) (x : AC) : (moveReturn c n x .abort s).besideFrame = s.besideFrame :=
    besideFrame_of_around (moveReturn_around n x .abort)
  unfold abortBreak
  repeat' split
  all_goals first
    | rfl
    | exact withdrawn
    | exact (joinBreak_besideFrame c _).trans (moved _ _)

theorem gpiFire_around (c : Fin 4) (s : State) : (gpiFire c s).around c = s.around c := by
  grind [gpiFire, fireRecord, acceptTrigger_around, State.setCh_around]

theorem actOnEdge_besideFrame (f : GpiFunction) (s : State) :
    (actOnEdge f s).besideFrame = s.besideFrame := by
  cases f with
  | none => rfl
  | micLive c => rfl
  | brk c => exact besideFrame_of_around (gpiFire_around c s)
  | abort c => exact abortBreak_besideFrame c s
  | emergency c => exact besideFrame_of_around (forceFill_around (c := c))
  | cart c n l => exact besideFrame_of_around (requestCart_around n l)

theorem raiseAlert_besideFrame (src : AlertSource) (s : State) :
    (raiseAlert src s).besideFrame = s.besideFrame := by
  rw [raiseAlert_eq]
  rfl

theorem sampleLine_besideFrame (g : Fin 8) (level : Bool) (s : State) :
    (sampleLine g level s).besideFrame = s.besideFrame := by
  unfold sampleLine
  dsimp only
  split
  · rfl
  · split
    · rfl
    · split
      · exact (actOnEdge_besideFrame _ _).trans (raiseAlert_besideFrame _ _)
      · exact raiseAlert_besideFrame _ _

theorem sampleLines_besideFrame (gpi : Byte) (s : State) :
    (sampleLines gpi s).besideFrame = s.besideFrame :=
  foldl_keeps State.besideFrame _ (fun t g => sampleLine_besideFrame g _ t) allGpi s

/-- A frame formed: sent, with the clock at its AC. -/
def State.framed (f : TrunkFrame) (s : State) : State :=
  ((s.setTx { s.tx with sent := some f }).setClock
    { s.clock with ac := s.nextAC, noneFormed := false }).setForming .start

/-- The frame formed, and the block judged that it ends (R153). -/
def State.judged (f : TrunkFrame) (s : State) : State :=
  if isBlockEnd s.nextAC then forChannels judgeBlock (s.framed f) else s.framed f

theorem afterFrame_eq (f : TrunkFrame) (gpi : Byte) (s : State) : afterFrame f gpi s =
    if isBoundary s.nextAC ∧ s.forming.sampled = false then sampleLines gpi (s.judged f)
    else s.judged f := rfl

theorem judged_besideFrame (f : TrunkFrame) (s : State) :
    (s.judged f).besideFrame = (s.framed f).besideFrame := by
  unfold State.judged
  split
  · exact forChannels_keeps State.besideFrame _ (fun _ _ => besideFrame_of_around judgeBlock_around) _
  · rfl

theorem afterFrame_besideFrame (f : TrunkFrame) (gpi : Byte) (s : State) :
    (afterFrame f gpi s).besideFrame = (s.framed f).besideFrame := by
  rw [afterFrame_eq, ← judged_besideFrame]
  split
  · exact sampleLines_besideFrame gpi _
  · rfl

/-! ### A frame of a part at rest -/

theorem State.uneventful_of_rest (h : atRest s) : s.Uneventful := by
  obtain ⟨settled, forming, events, -, channels, inbox, build, -, assembly, -⟩ := h
  have none_ (c : Fin 4) (r : BreakRecord) : r ∉ (s.ch c).queue := by
    rw [(channels c).1]
    exact List.not_mem_nil
  have noAssembly : ∀ a ∈ s.cmd.assembly, a.deadline ≠ s.nextAC := by
    rw [assembly]
    exact fun a ha => nomatch ha
  exact ⟨settled, forming, events, inbox, build, noAssembly, fun c r hr => absurd hr (none_ c r), fun c r hr => absurd hr (none_ c r),
    fun c r hr => absurd hr (none_ c r)⟩

/-- A state with no PLAYING voice and every channel at unity gain or HALTED. -/
structure State.Hushed (s : State) : Prop where
  outputs : s.forming.outputs = []
  channel : ∀ c, (s.ch c).state ≠ .halted → (s.ch c).gain = 3840
  ready : s.alert.ready = none
  replies : s.cmd.replies = []
  fifo : s.tx.fifo = []
  merger : s.tx.merger = .between

theorem slot_unity (carried : Option (Vector Sample 16)) (slot side : Nat) (c : Fin 4) {x : Channel}
    (hg : x.gain = 3840) : mixedSide c x [] carried side slot = networkWord carried slot
      ∧ roundMix (mixSum c x [] side (networkWord carried slot)) = networkWord carried slot := by
  have range : -8388608 ≤ networkWord carried slot ∧ networkWord carried slot ≤ 8388607 := by
    cases carried with
    | none => exact ⟨by simp [networkWord], by simp [networkWord]⟩
    | some v =>
      have low : -8388608 ≤ (slotAt v slot).toInt := BitVec.le_toInt (slotAt v slot)
      have high : (slotAt v slot).toInt < 8388608 := BitVec.toInt_lt (x := slotAt v slot)
      exact ⟨low, Int.le_sub_one_of_lt high⟩
  have sum : mixSum c x [] side (networkWord carried slot) = networkWord carried slot * 8388608 := by
    rw [mixSum, hg]
    simp [multiplier]
  have round : roundMix (mixSum c x [] side (networkWord carried slot)) = networkWord carried slot := by
    rw [sum, roundMix]
    omega
  refine ⟨?_, round⟩
  rw [mixedSide, round, saturate]
  omega

theorem setIfInBounds_own (v : Vector Sample 16) (i : Nat) : v.setIfInBounds i (slotAt v i) = v := by
  ext k hk
  rw [Vector.getElem_setIfInBounds]
  split
  · next h =>
    subst h
    simp [slotAt, hk]
  · rfl

theorem ofInt_networkWord (carried : Option (Vector Sample 16)) (i : Nat) :
    BitVec.ofInt 24 (networkWord carried i) = slotAt (carried.getD (Vector.replicate 16 0)) i := by
  cases carried with
  | none =>
    have zero : slotAt (Vector.replicate 16 (0 : Sample)) i = 0 := by
      rw [slotAt]
      by_cases hi : i < 16 <;> simp [hi]
    exact zero.symm
  | some v => exact BitVec.ofInt_toInt

/-- A hushed channel carries its two slots through, and only its peaks move. -/
theorem mixChannel_hushed {carried : Option (Vector Sample 16)} (c : Fin 4)
    (ho : s.forming.outputs = []) (hg : (s.ch c).state ≠ .halted → (s.ch c).gain = 3840) : ∃ x,
    mixChannel c carried (carried.getD (Vector.replicate 16 0)) s =
      (carried.getD (Vector.replicate 16 0), s.setCh c { s.ch c with
        monitor := { (s.ch c).monitor with peaks := x } }) := by
  by_cases halted : (s.ch c).state = .halted
  · rw [mixChannel_halted halted]
    exact ⟨(s.ch c).monitor.peaks, by rw [State.setCh_own]⟩
  · have unity (side slot : Nat) := slot_unity carried slot side c (hg halted)
    obtain ⟨b, b', p, hb, hb', state⟩ := mixChannel_state
      (slots := carried.getD (Vector.replicate 16 0)) (carried := carried) halted
    have slots := mixChannel_slots (slots := carried.getD (Vector.replicate 16 0))
      (carried := carried) halted
    rw [ho, (unity _ _).1, (unity _ _).2, bne_self_eq_false] at hb hb'
    rw [ho, (unity _ _).1, (unity _ _).1, ofInt_networkWord, ofInt_networkWord, setIfInBounds_own,
      setIfInBounds_own] at slots
    subst hb hb'
    exact ⟨some p, Prod.ext slots state⟩

theorem State.Hushed.setCh (h : s.Hushed) {c : Fin 4} {x : Channel}
    (hx : x.state ≠ .halted → x.gain = 3840) : (s.setCh c x).Hushed :=
  { h with
    channel := fun d => by
      rw [State.ch_setCh]
      split
      · exact hx
      · exact h.channel d }

theorem mixSome_hushed (carried : Option (Vector Sample 16)) (l : List (Fin 4)) (h : s.Hushed) :
    ∃ x, mixSome carried l (carried.getD (Vector.replicate 16 0), s) =
        (carried.getD (Vector.replicate 16 0), s.setChans x) ∧ (s.setChans x).Hushed := by
  induction l generalizing s with
  | nil => exact ⟨s.chans, rfl, h⟩
  | cons c l ih =>
    obtain ⟨p, mixed⟩ := mixChannel_hushed (carried := carried) c h.outputs (h.channel c)
    have next := h.setCh (c := c) (x := { s.ch c with
      monitor := { (s.ch c).monitor with peaks := p } }) fun on => h.channel c on
    obtain ⟨x, rest, still⟩ := ih next
    refine ⟨x, ?_, still⟩
    rw [mixSome, List.foldl_cons]
    dsimp only
    rw [mixed]
    exact rest

/-- With nothing to send the merger sends idle bytes and stays. -/
theorem mergerFrame_hushed (h : s.Hushed) : mergerFrame s = (Vector.replicate 4 0, s) := by
  have idle : mergerByte s = (0, s) := by
    rw [mergerByte, h.merger]
    dsimp only
    rw [betweenByte, h.fifo, h.ready, h.replies, startPass, h.fifo]
    rfl
  simp only [mergerFrame, idle]
  rfl

theorem voiceSteady_free {v : Fin 16} (h : (s.voice v).state = .free) : voiceSteady s v :=
  ⟨fun primed => absurd (h.symm.trans primed) (by decide),
    fun playing => absurd (h.symm.trans playing) (by decide)⟩

/-- A part at rest up to the mix of its next frame: every channel where it was, but for its duck. -/
theorem rest_beforeMix (h : atRest s) :
    let u := handleThrough 15 (boundaryMoves (reachMoments (openBreaks s)))
    u.Hushed ∧ u.besideFrame = s.besideFrame := by
  intro u
  obtain ⟨-, -, -, voices, channels, -, -, replies, -, ready, fifo, merger⟩ := id h
  have still : ∀ c : Fin 4, (s.ch c).state ≠ .joining ∧ (s.ch c).state ≠ .emergency := by
    intro c
    obtain ⟨-, state | state, -⟩ := channels c <;> rw [state] <;> decide
  have unity (c : Fin 4) : (gainMoved (s.ch c)).gain = 3840 := by
    obtain ⟨-, -, gain, target⟩ := channels c
    have stays (rate : Nat) : moveToward 3840 3840 rate = 3840 := by
      rw [moveToward, if_neg (Nat.lt_irrefl _)]
      omega
    simp only [gainMoved, gain, target, stays, ite_self]
  obtain ⟨x, moved, gains⟩ : ∃ x, boundaryMoves (s.setForming .ready) =
      (s.setForming .ready).setChans x ∧ ∀ c, ((s.setForming .ready).setChans x |>.ch c).gain = 3840 := by
    by_cases boundary : s.nextAC.toNat % 32 = 0
    · exact ⟨_, boundaryMoves_eq (s := s.setForming .ready) boundary still, fun c => by
        rw [ch_setChans_ofFn]
        exact unity c⟩
    · exact ⟨s.chans, boundaryMoves_elsewhere (s := s.setForming .ready) boundary, fun c =>
        (channels c).2.2.1⟩
  have sounded := handleThrough_steady (t := (s.setForming .ready).setChans x) rfl fun v =>
    voiceSteady_free (s := (s.setForming .ready).setChans x) (voices v)
  have whole : u = handleThrough 15 ((s.setForming .ready).setChans x) := by
    show handleThrough 15 (boundaryMoves (reachMoments (openBreaks s))) = _
    rw [(State.uneventful_of_rest h).reachMoments, moved]
  rw [whole]
  have beside := sounded.beside
  have outputs := sounded.outputs
  generalize handleThrough 15 ((s.setForming .ready).setChans x) = w at *
  simp only [State.besidePlay, Prod.mk.injEq] at beside
  obtain ⟨⟨rx, lane, tx, clock, cues, memory, -⟩, chans, -, -, -, cmd, alert, pending⟩ := beside
  refine ⟨⟨?_, fun c _ => ?_, ?_, ?_, ?_, ?_⟩, ?_⟩
  · rw [outputs, List.filter_eq_nil_iff.2]
    · rfl
    · intro v _
      have free : (((s.setForming .ready).setChans x).voice v).state = .free := voices v
      rw [free]
      decide
  · rw [ch_of_chans chans]
    exact gains c
  · rw [alert]
    exact ready
  · rw [cmd]
    exact replies
  · rw [tx]
    exact fifo
  · rw [tx]
    exact merger
  · rw [State.besideFrame, rx, lane, tx, clock, cues, memory, pending]
    rfl

/-- The frame of a part at rest carries its slots through. -/
theorem formFrame_rest (h : atRest s) (carried : Option (Vector Sample 16)) (gpi : Byte) : ∃ u,
    formFrame carried gpi s =
        afterFrame (quietFrame (carried.getD (Vector.replicate 16 0))) gpi u
      ∧ u.besideFrame = s.besideFrame := by
  obtain ⟨hushed, beside⟩ := rest_beforeMix h
  unfold formFrame
  generalize handleThrough 15 (boundaryMoves (reachMoments (openBreaks s))) = u at *
  obtain ⟨x, mixed, still⟩ := mixSome_hushed carried allChannels hushed
  have whole : mixAll carried u = (carried.getD (Vector.replicate 16 0), u.setChans x) := mixed
  dsimp only
  rw [whole]
  dsimp only
  rw [mergerFrame_hushed still]
  exact ⟨u.setChans x, rfl, beside⟩

/-- What a frame of a part at rest leaves. -/
theorem formFrame_rest_fields (h : atRest s) (carried : Option (Vector Sample 16)) (gpi : Byte) :
    let t := formFrame carried gpi s
    t.tx = { s.tx with sent := some (quietFrame (carried.getD (Vector.replicate 16 0))) }
      ∧ t.clock = { s.clock with ac := s.nextAC, noneFormed := false }
      ∧ t.rx = s.rx ∧ t.lane = s.lane ∧ t.cues = s.cues ∧ t.memory = s.memory
      ∧ t.pending = s.pending := by
  obtain ⟨u, whole, beside⟩ := formFrame_rest h carried gpi
  have after := afterFrame_besideFrame (quietFrame (carried.getD (Vector.replicate 16 0))) gpi u
  rw [whole]
  simp only [State.besideFrame, Prod.mk.injEq] at beside after
  obtain ⟨rx, lane, tx, clock, cues, memory, pending⟩ := beside
  obtain ⟨rx', lane', tx', clock', cues', memory', pending'⟩ := after
  refine ⟨tx'.trans ?_, clock'.trans ?_, rx'.trans rx, lane'.trans lane, cues'.trans cues,
    memory'.trans memory, pending'.trans pending⟩
  · exact congrArg (fun x : Egress => { x with
      sent := some (quietFrame (carried.getD (Vector.replicate 16 0))) }) tx
  · have next : u.nextAC = s.nextAC := by rw [State.nextAC, clock, State.nextAC]
    rw [← next]
    exact congrArg (fun x : AirClock => { x with ac := u.nextAC, noneFormed := false }) clock

/-- Settles O17. -/
theorem followFrameCarriesTheSlots : Obligations.FollowFrameCarriesTheSlots := by
  intro gpi s f rest h transit
  have row : exec (.egressFrameFollow gpi) s = .next (followFrame gpi s) := rfl
  have rest' : atRest (s.setTx { s.tx with
      mode := .follow, awaitFirst := false, transit := rest
      timingSlip := if s.tx.mode = .holdover then bump s.tx.timingSlip else s.tx.timingSlip }) := h
  obtain ⟨tx, clock, rx, lane, cues, memory, pending⟩ := formFrame_rest_fields rest' (some f.slots) gpi
  refine ⟨_, row, ?_⟩
  rw [followFrame, transit]
  exact ⟨tx, clock, rx, lane, cues, memory, pending⟩

/-- Settles O18: both rows form the same frame. -/
theorem holdoverFrameCarriesZeros : Obligations.HoldoverFrameCarriesZeros := by
  intro gpi s i h due
  have row : exec i s = .next (holdoverFrame gpi s) := by
    obtain ⟨rfl, mode, first⟩ | ⟨rfl, first⟩ := due
    · exact congrArg Host.Outcome.next (if_pos ⟨mode, first⟩)
    · exact congrArg Host.Outcome.next (if_pos first)
  have rest' : atRest (s.setTx { s.tx with
      awaitFirst := false, periodCounter := s.tx.holdover }) := h
  obtain ⟨tx, clock, rx, lane, cues, memory, pending⟩ := formFrame_rest_fields rest' none gpi
  refine ⟨_, row, ?_⟩
  rw [holdoverFrame]
  exact ⟨tx, clock, rx, lane, cues, memory, pending⟩

end Sys2Proof.Machine
end

section
/-! PROOFS. The contact lines: the samples of a boundary frame, and what a rising edge does (R162, R163). -/

namespace Sys2Proof.Machine

open Claim

variable {s u : State}

/-! ### One sample of a line -/

theorem State.setGpiLine_own (s : State) (g : Fin 8) : s.setGpiLine g (s.gpiLine g) = s := by
  rw [State.setGpiLine, State.gpiLine, Vector.set_getElem_self]
  rfl

theorem sampleLine_agrees {g : Fin 8} {level : Bool} (h : level = (s.gpiLine g).stable) :
    sampleLine g level s = s.setGpiLine g { s.gpiLine g with run := 0 } := if_pos h

theorem sampleLine_quiet {g : Fin 8} {level : Bool} (hr : (s.gpiLine g).run = 0)
    (h : level = (s.gpiLine g).stable) : sampleLine g level s = s := by
  rw [sampleLine_agrees h, ← hr]
  exact State.setGpiLine_own s g

theorem sampleLine_counts {g : Fin 8} {level : Bool} (h : level ≠ (s.gpiLine g).stable)
    (hr : (s.gpiLine g).run < 4) : sampleLine g level s =
      s.setGpiLine g { s.gpiLine g with run := (s.gpiLine g).run + 1 } := by
  have few : (s.gpiLine g).run + 1 < 5 := by omega
  rw [sampleLine, if_neg h]
  exact if_pos few

/-- The fifth differing sample. -/
theorem sampleLine_changes {g : Fin 8} {level : Bool} (h : level ≠ (s.gpiLine g).stable)
    (hr : 4 ≤ (s.gpiLine g).run) : sampleLine g level s =
      if level then actOnEdge (s.gpiLine g).fn (raiseAlert (.gpi g)
        (s.setGpiLine g { s.gpiLine g with stable := level, run := 0 }))
      else raiseAlert (.gpi g) (s.setGpiLine g { s.gpiLine g with stable := level, run := 0 }) := by
  have many : ¬ (s.gpiLine g).run + 1 < 5 := by omega
  rw [sampleLine, if_neg h]
  exact if_neg many

/-! ### A frame's samples with no function -/

/-- Line x after a sample of this level. -/
def sampled (level : Bool) (x : GpiLine) : GpiLine :=
  if level = x.stable then { x with run := 0 }
  else if x.run < 4 then { x with run := x.run + 1 }
  else { x with stable := level, run := 0 }

/-- State u is s with the lines of a list sampled: but for them and the alert unit it is s. -/
structure State.SampledOn (s : State) (gpi : Byte) (l : List (Fin 8)) (u : State) : Prop where
  beside : u = (s.setGpi u.gpi).setAlert u.alert
  line : ∀ k, u.gpiLine k = if k ∈ l then sampled (gpi.getLsbD k.val) (s.gpiLine k) else s.gpiLine k
  alert : (∀ g : Fin 8, (s.alert.mask &&& (AlertSource.gpi g).mask) = 0) → u.alert = s.alert

/-- A function whose edges do nothing more: NONE and MIC_LIVE. -/
def GpiFunction.Passive (f : GpiFunction) : Prop := f = .none ∨ ∃ c, f = .micLive c

theorem actOnEdge_passive {f : GpiFunction} (h : f.Passive) (s : State) : actOnEdge f s = s := by
  obtain rfl | ⟨c, rfl⟩ := h <;> rfl

/-- A sample of a line whose edges do nothing more. -/
theorem sampleLine_passive (gpi : Byte) {g : Fin 8} (h : (s.gpiLine g).fn.Passive) :
    s.SampledOn gpi [g] (sampleLine g (gpi.getLsbD g.val) s) := by
  have one (x : GpiLine) (k : Fin 8) (hx : x = sampled (gpi.getLsbD g.val) (s.gpiLine g)) :
      (s.setGpiLine g x).gpiLine k =
        if k ∈ [g] then sampled (gpi.getLsbD k.val) (s.gpiLine k) else s.gpiLine k := by
    rw [State.gpiLine_setGpiLine, hx]
    simp only [List.mem_singleton]
    split
    · next hk => rw [hk]
    · rfl
  by_cases agrees : gpi.getLsbD g.val = (s.gpiLine g).stable
  · rw [sampleLine_agrees agrees]
    exact ⟨rfl, fun k => one _ k (by rw [sampled, if_pos agrees]), fun _ => rfl⟩
  · by_cases few : (s.gpiLine g).run < 4
    · rw [sampleLine_counts agrees few]
      exact ⟨rfl, fun k => one _ k (by rw [sampled, if_neg agrees, if_pos few]), fun _ => rfl⟩
    · have changed : sampleLine g (gpi.getLsbD g.val) s = raiseAlert (.gpi g) (s.setGpiLine g
          { s.gpiLine g with stable := gpi.getLsbD g.val, run := 0 }) := by
        rw [sampleLine_changes agrees (Nat.le_of_not_lt few), actOnEdge_passive h]
        exact ite_self _
      rw [changed, raiseAlert_eq]
      refine ⟨rfl, fun k => one _ k (by rw [sampled, if_neg agrees, if_neg few]), fun unmasked => ?_⟩
      have unheard : raiseAlert (.gpi g) (s.setGpiLine g { s.gpiLine g with
        stable := gpi.getLsbD g.val, run := 0 }) = _ := if_pos (unmasked g)
      rw [State.setAlert_alert, unheard]
      rfl

theorem State.SampledOn.cons {gpi : Byte} {g : Fin 8} {l : List (Fin 8)} {w : State} (fresh : g ∉ l)
    (h : s.SampledOn gpi [g] u) (h' : u.SampledOn gpi l w) : s.SampledOn gpi (g :: l) w := by
  refine ⟨?_, fun k => ?_, fun unmasked => ?_⟩
  · rw [h'.beside, h.beside]
    rfl
  · rw [h'.line]
    by_cases hk : k ∈ l
    · have own : u.gpiLine k = s.gpiLine k := by
        rw [h.line, if_neg]
        intro one
        exact fresh (List.mem_singleton.1 one ▸ hk)
      rw [if_pos hk, if_pos (List.mem_cons_of_mem g hk), own]
    · rw [if_neg hk, h.line]
      simp only [List.mem_cons, List.not_mem_nil, hk, or_false]
  · have kept := h.alert unmasked
    rw [h'.alert (by rw [kept]; exact unmasked), kept]

theorem sampleLines_passive (gpi : Byte) {l : List (Fin 8)} (hl : l.Nodup)
    (h : ∀ g, (s.gpiLine g).fn.Passive) :
    s.SampledOn gpi l (l.foldl (fun t g => sampleLine g (gpi.getLsbD g.val) t) s) := by
  induction l generalizing s with
  | nil => exact ⟨rfl, fun k => (if_neg List.not_mem_nil).symm, fun _ => rfl⟩
  | cons g l ih =>
    obtain ⟨fresh, hl⟩ := List.nodup_cons.1 hl
    have first := sampleLine_passive gpi (h g)
    refine first.cons fresh (ih hl fun k => ?_)
    rw [first.line]
    split
    · rw [sampled]
      repeat' split
      all_goals exact h k
    · exact h k

theorem mem_allGpi (g : Fin 8) : g ∈ allGpi := by
  revert g
  decide

theorem exec_gpiLevelChange {gpi : Byte} (mid : midFrame s) (boundary : s.nextAC.toNat % 32 = 0)
    (fresh : s.forming.sampled = false) : exec (.gpiLevelChange gpi) s =
      .next ((sampleLines gpi s).setForming { (sampleLines gpi s).forming with sampled := true }) := by
  have at_ : isBoundary s.nextAC = true ∧ s.forming.sampled = false :=
    ⟨beq_iff_eq.2 boundary, fresh⟩
  simp only [exec, execGpiLevelChange, openFrame_of_mid mid, sampleOnce]
  rw [if_pos at_, if_pos at_]

theorem contactLines_areDebounced : Claim.contactLinesAreDebounced := by
  intro gpi s mid boundary fresh none_
  refine ⟨_, exec_gpiLevelChange mid boundary fresh, ?_⟩
  have all := sampleLines_passive gpi (l := allGpi) (by decide) fun g => .inl (none_ g)
  have same : sampleLines gpi s = _ := all.beside
  refine ⟨fun g => ?_, ?_, all.alert, ?_⟩
  · rw [State.setForming_gpiLine]
    exact (all.line g).trans (if_pos (mem_allGpi g))
  · rw [same]
    rfl
  · rw [same]
    exact ⟨rfl, rfl, rfl, rfl, rfl, rfl, rfl, rfl, rfl, rfl, rfl, rfl, rfl, rfl, rfl⟩

/-! ### A rising edge -/

theorem sampleLine_rises {g : Fin 8} (low : (s.gpiLine g).stable = false)
    (hr : (s.gpiLine g).run = 4) : sampleLine g true s = actOnEdge (s.gpiLine g).fn
      (raiseAlert (.gpi g) (s.setGpiLine g { s.gpiLine g with stable := true, run := 0 })) := by
  rw [sampleLine_changes (by rw [low]; decide) hr.ge, if_pos rfl]

theorem risingEdges_act : Claim.risingEdgesAct := by
  intro s g low hr u fn firable
  have rises : sampleLine g true s = actOnEdge fn u := sampleLine_rises low hr
  have channel (c : Fin 4) : u.ch c = s.ch c := (raiseAlert_ch ..).trans rfl
  have clock : u.clock = s.clock := (raiseAlert_clock ..).trans rfl
  have free (c : Fin 4) : u.freeForBreak c = s.freeForBreak c := by
    simp only [State.freeForBreak, State.flight, channel]
  refine ⟨?_, fun c hc => ⟨fun r may hq => ?_, fun busy => ?_⟩, fun c hc => ⟨fun none_ => ?_, ?_⟩,
    fun c hc => ⟨fun no => ?_, fun clip may some_ => ?_⟩, fun c clip level hc => ⟨?_, fun halted => ?_⟩⟩
  · rintro (hc | ⟨c, hc⟩) <;> rw [rises, hc] <;> rfl
  · have found : (u.ch c).queue.find? BreakRecord.firable = some r := by rw [channel]; exact hq
    rw [rises, hc, actOnEdge, gpiFire, free, may, found, ← clock]
    rfl
  · have refused : gpiFire c u = u.setCh c { u.ch c with
        fireRefusals := bump (u.ch c).fireRefusals } := by
      obtain not_ | missing := busy
      · rw [gpiFire, free, not_]
      · have missing' : (u.ch c).queue.find? BreakRecord.firable = none := by
          rw [channel]
          exact missing
        rw [gpiFire, missing']
        cases u.freeForBreak c <;> rfl
    rw [rises, hc, actOnEdge, refused, channel]
    rfl
  · have noFlight : u.flight c = none := by
      rw [State.flight, channel]
      exact none_
    rw [rises, hc, actOnEdge, abortBreak, noFlight]
  · rw [rises, hc]
    rfl
  · rw [rises, hc, actOnEdge, forceFill, channel]
    obtain not_ | missing := no
    · exact if_neg not_
    · split
      · rw [missing]
      · rfl
  · rw [rises, hc, actOnEdge, forceFill, channel]
    rw [if_pos may, some_]
  · rw [rises, hc]
    rfl
  · have halted' : (u.ch c).state = .halted := by rw [channel]; exact halted
    rw [rises, hc, actOnEdge, requestCart, if_pos halted', refuseCart, channel]
    rfl

/-! ### A rising edge in a frame -/

theorem cued_abortBreak {r : State} (h : r.Cued s) (c : Fin 4) : r.Cued (abortBreak c s).2 := by
  grind [abortBreak, moveReturn, cued_withdrawBreak, cued_modRecord, cued_joinBreak]

theorem gpi_of_work {t : State} (h : t.besideWork = s.besideWork) : t.gpi = s.gpi := by
  simp only [State.besideWork, Prod.mk.injEq] at h
  obtain ⟨-, -, gpi, -⟩ := h
  exact gpi

/-- What an edge does leaves the contact lines. -/
theorem actOnEdge_gpi (f : GpiFunction) (s : State) : (actOnEdge f s).gpi = s.gpi := by
  cases f with
  | none => rfl
  | micLive c => rfl
  | brk c => exact gpi_of_work (besideWork_of_around (gpiFire_around c s))
  | abort c =>
    have bearing := (cued_abortBreak (State.Cued.refl s) c).bearing
    simp only [State.bearing, Prod.mk.injEq] at bearing
    obtain ⟨-, ⟨gpi, -⟩, -⟩ := bearing
    exact gpi
  | emergency c => exact gpi_of_work (besideWork_of_around (forceFill_around (c := c)))
  | cart c n l => exact gpi_of_work (besideWork_of_around (requestCart_around (c := c) n l))

theorem sampleLine_rises_other {g k : Fin 8} (low : (s.gpiLine g).stable = false)
    (hr : (s.gpiLine g).run = 4) (hk : k ≠ g) : (sampleLine g true s).gpiLine k = s.gpiLine k := by
  rw [sampleLine_rises low hr, State.gpiLine, actOnEdge_gpi, raiseAlert_gpi]
  exact State.gpiLine_setGpiLine_other s g k _ hk

/-- Lines that agree with no change run stay as they are. -/
theorem sampleLines_quiet (gpi : Byte) {l : List (Fin 8)}
    (h : ∀ k ∈ l, (s.gpiLine k).run = 0 ∧ gpi.getLsbD k.val = (s.gpiLine k).stable) :
    l.foldl (fun t g => sampleLine g (gpi.getLsbD g.val) t) s = s := by
  induction l with
  | nil => rfl
  | cons g l ih =>
    obtain ⟨run, agrees⟩ := h g List.mem_cons_self
    rw [List.foldl_cons, sampleLine_quiet run agrees]
    exact ih fun k hk => h k (List.mem_cons_of_mem g hk)

theorem risingEdge_inAFrame : Claim.risingEdgeInAFrame := by
  intro gpi s g mid boundary fresh high low hr others t
  have nodup : allGpi.Nodup := by decide
  obtain ⟨before, after, split⟩ := List.append_of_mem (mem_allGpi g)
  rw [split] at nodup
  have notBefore : g ∉ before := fun hg =>
    (List.nodup_append.1 nodup).2.2 g hg g List.mem_cons_self rfl
  have notAfter : g ∉ after := (List.nodup_cons.1 (List.nodup_append.1 nodup).2.1).1
  have all : sampleLines gpi s = t := by
    unfold sampleLines
    rw [split, List.foldl_append, List.foldl_cons, sampleLines_quiet gpi fun k hk =>
      others k fun same => notBefore (same ▸ hk), high]
    refine sampleLines_quiet gpi fun k hk => ?_
    have other : k ≠ g := fun same => notAfter (same ▸ hk)
    rw [sampleLine_rises_other low hr other]
    exact others k other
  rw [exec_gpiLevelChange mid boundary fresh, all]

/-- Settles O32. -/
theorem contactLinesAreDebounced : Obligations.ContactLinesAreDebounced :=
  ⟨contactLines_areDebounced, risingEdges_act, risingEdge_inAFrame⟩

end Sys2Proof.Machine
end

section
/-! PROOFS. POWER_ON_RESET: the power-on state and its first frame (R18). -/

namespace Sys2Proof.Machine

open Claim

variable {s t : State}

/-- The power-on state from which the first HOLDOVER frame is formed. -/
def firstState (straps : Byte) (s : State) : State :=
  let p := powerOnState straps s
  p.setTx { p.tx with awaitFirst := false, periodCounter := p.tx.holdover }

theorem firstState_voice (straps : Byte) (s : State) (v : Fin 16) :
    (firstState straps s).voice v = .freed := by fin_cases v <;> rfl

theorem firstState_ch (straps : Byte) (s : State) (c : Fin 4) :
    (firstState straps s).ch c = .powerOn c := by fin_cases c <;> rfl

theorem firstState_gpiLine (straps : Byte) (s : State) (g : Fin 8) :
    (firstState straps s).gpiLine g = ⟨false, 0, .none⟩ := by fin_cases g <;> rfl

theorem firstState_settled (straps : Byte) (s : State) : (firstState straps s).settled = true := by
  have quiet : allChannels.all (fun c => !(firstState straps s).silenceDue c
      && !(firstState straps s).recoveryDue c) = true := by
    refine List.all_eq_true.2 fun c _ => ?_
    simp only [State.silenceDue, State.recoveryDue, firstState_ch]
    rfl
  rw [State.settled, quiet]
  rfl

theorem firstState_atRest (straps : Byte) (s : State) : atRest (firstState straps s) := by
  refine ⟨firstState_settled straps s, rfl, rfl, fun v => ?_, fun c => ?_, rfl, rfl, rfl, rfl, rfl,
    rfl, rfl⟩
  · rw [firstState_voice]
    rfl
  · rw [firstState_ch]
    exact ⟨rfl, .inl rfl, rfl, rfl⟩

/-- A state with the same rest, voices and events is the same but for the frame in formation. -/
theorem eq_of_besidePlay (h : t.besidePlay = s.besidePlay) (voices : ∀ v, t.voice v = s.voice v)
    (events : t.events = s.events) : t = s.setForming t.forming := by
  have same : t.voices = s.voices := by
    ext i hi
    exact voices ⟨i, hi⟩
  obtain ⟨⟩ := s
  obtain ⟨⟩ := t
  simp only [State.besidePlay, Prod.mk.injEq] at h same events
  simp only [State.setForming, State.mk.injEq]
  tauto

/-- The moves of the first frame move nothing: every channel is HALTED, with its duck at 0. -/
theorem firstState_moves (straps : Byte) (s : State) (x : Forming) :
    boundaryMoves ((firstState straps s).setForming x) = (firstState straps s).setForming x := by
  have halted (c : Fin 4) : ((firstState straps s).ch c).state = .halted := by
    rw [firstState_ch]
    rfl
  have silent (c : Fin 4) : ((firstState straps s).setForming x).micLive c = false := by
    rw [Bool.eq_false_iff, Ne, micLive_iff]
    rintro ⟨g, -, live⟩
    rw [State.setForming_gpiLine, firstState_gpiLine] at live
    exact Bool.false_ne_true live
  rw [boundaryMoves_eq (s := (firstState straps s).setForming x) rfl fun c => by
    rw [State.setForming_ch, halted]
    exact ⟨by decide, by decide⟩]
  have same : (Vector.ofFn fun c => duckMoved (((firstState straps s).setForming x).micLive c)
      (gainMoved (((firstState straps s).setForming x).ch c))) = (firstState straps s).chans := by
    ext1 i hi
    rw [Vector.getElem_ofFn, silent, State.setForming_ch, firstState_ch]
    have own : (firstState straps s).chans[i] = Channel.powerOn i := firstState_ch straps s ⟨i, hi⟩
    rw [own]
    rfl
  rw [same]
  rfl

/-- The first frame up to its mix changes only the frame in formation. -/
theorem firstState_beforeMix (straps : Byte) (s : State) : ∃ x : Forming, x.sampled = false ∧
    handleThrough 15 (boundaryMoves (reachMoments (openBreaks (firstState straps s)))) =
      (firstState straps s).setForming x := by
  have atRest := firstState_atRest straps s
  have free (v : Fin 16) : (((firstState straps s).setForming .ready).voice v).state = .free := by
    rw [State.setForming_voice, firstState_voice]
    rfl
  rw [(State.uneventful_of_rest atRest).reachMoments, firstState_moves]
  have sounded := handleThrough_steady (t := (firstState straps s).setForming .ready) rfl fun v =>
    voiceSteady_free (free v)
  have still (v : Fin 16) : (handleThrough 15 ((firstState straps s).setForming .ready)).voice v =
      ((firstState straps s).setForming .ready).voice v := by
    rw [sounded.voice, State.movedOn, free]
    simp
  have same := eq_of_besidePlay sounded.beside still sounded.events
  exact ⟨_, sounded.sampled, same⟩

theorem mixAll_halted (h : ∀ c, (s.ch c).state = .halted) (carried : Option (Vector Sample 16)) :
    mixAll carried s = (carried.getD (Vector.replicate 16 0), s) := by
  unfold mixAll
  generalize allChannels = l
  induction l with
  | nil => rfl
  | cons c l ih =>
    rw [List.foldl_cons]
    dsimp only
    rw [mixChannel_halted (h c), ih]

theorem firstFrame_eq (straps gpi : Byte) (s : State) : holdoverFrame gpi (powerOnState straps s) =
    sampleLines gpi ((firstState straps s).framed (quietFrame (Vector.replicate 16 0))) := by
  obtain ⟨x, fresh, before⟩ := firstState_beforeMix straps s
  have hushed := (rest_beforeMix (firstState_atRest straps s)).1
  rw [before] at hushed
  have halted (c : Fin 4) : (((firstState straps s).setForming x).ch c).state = .halted := by
    rw [State.setForming_ch, firstState_ch]
    rfl
  have whole : holdoverFrame gpi (powerOnState straps s) = formFrame none gpi (firstState straps s) :=
    rfl
  rw [whole, formFrame, before, mixAll_halted halted]
  dsimp only
  rw [mergerFrame_hushed hushed, afterFrame_eq]
  have boundary : isBoundary ((firstState straps s).setForming x).nextAC = true
      ∧ ((firstState straps s).setForming x).forming.sampled = false := ⟨rfl, fresh⟩
  rw [if_pos boundary]
  rfl

/-- Settles O20: the first frame moves nothing, and the contact lines take one sample. -/
theorem powerOnFormsTheFirstFrame : Obligations.PowerOnFormsTheFirstFrame := by
  intro straps gpi s
  have row : exec (.powerOnReset straps gpi) s = .next (holdoverFrame gpi (powerOnState straps s)) :=
    rfl
  have lines (g : Fin 8) : ((firstState straps s).framed (quietFrame (Vector.replicate 16 0))).gpiLine
      g = ⟨false, 0, .none⟩ := firstState_gpiLine straps s g
  have sampled := sampleLines_passive gpi (l := allGpi) (by decide)
    (s := (firstState straps s).framed (quietFrame (Vector.replicate 16 0))) fun g => .inl (by rw [lines])
  have alert : (sampleLines gpi ((firstState straps s).framed (quietFrame
      (Vector.replicate 16 0)))).alert =
      ((firstState straps s).framed (quietFrame (Vector.replicate 16 0))).alert :=
    sampled.alert fun g => BitVec.zero_and ..
  have gpi' : (sampleLines gpi ((firstState straps s).framed (quietFrame
      (Vector.replicate 16 0)))).gpi =
      Vector.ofFn fun g : Fin 8 => ⟨false, if gpi.getLsbD g.val then 1 else 0, .none⟩ := by
    ext1 i hi
    have line := sampled.line ⟨i, hi⟩
    rw [if_pos (mem_allGpi _), lines] at line
    rw [Vector.getElem_ofFn]
    refine Eq.trans line ?_
    rw [Machine.sampled]
    cases gpi.getLsbD i <;> rfl
  have whole : sampleLines gpi ((firstState straps s).framed (quietFrame (Vector.replicate 16 0))) =
      _ := sampled.beside
  rw [row, firstFrame_eq, whole]
  change Host.Outcome.next (State.setAlert (State.setGpi _ (sampleLines gpi
    ((firstState straps s).framed (quietFrame (Vector.replicate 16 0)))).gpi) (sampleLines gpi
    ((firstState straps s).framed (quietFrame (Vector.replicate 16 0)))).alert) = _
  rw [gpi', alert]
  rfl

end Sys2Proof.Machine
end

section
/-! PROOFS. The egress frames of a part whose channels mix and whose voices play (R50, R74 to R79). -/

namespace Sys2Proof.Machine

open Claim

variable {s t u : State}

/-! ### A voice in use through the steps after a frame -/

theorem holdClip_voices {n : Nat} (h : holdClip n s = some t) : t.voices = s.voices := by
  grind [holdClip, State.setEntry_voices]

/-- A claim takes a FREE voice and leaves the others. -/
theorem claimOne_voice {c : Fin 4} {p : Purpose} {clip : Nat} {v : Fin 16}
    (h : claimOne c p clip s = .ok (v, t)) :
    (s.voice v).state = .free ∧ ∀ w, w ≠ v → t.voice w = s.voice w := by
  unfold claimOne at h
  split at h
  · cases h
  · next x l hl =>
    split at h
    · cases h
    · next y hy =>
      have free : (s.voice x).state = .free := by
        have mem : x ∈ s.freeVoices := by rw [hl]; exact List.mem_cons_self
        exact beq_iff_eq.1 (List.mem_filter.1 mem).2
      simp only [Except.ok.injEq, Prod.mk.injEq] at h
      obtain ⟨rfl, rfl⟩ := h
      refine ⟨free, fun w hw => ?_⟩
      rw [State.voice_setVoice, if_neg hw]
      exact voice_of_voices (holdClip_voices hy) w

theorem primeVoice_voice_other {v w : Fin 16} (hw : w ≠ v) (q : PrimeReq) (s : State) :
    (primeVoice v q s).2.voice w = s.voice w := by
  unfold primeVoice
  dsimp only
  split
  · rfl
  · split
    · rfl
    · next t ht =>
      rw [State.voice_setVoice, if_neg hw]
      exact voice_of_voices (cued_primeHold (State.Cued.refl s) ht).2 w

/-- An emergency fill takes a FREE voice. -/
theorem startEmergency_voice {c : Fin 4} {clip : Nat} {w : Fin 16}
    (used : (s.voice w).state ≠ .free) : (startEmergency c clip s).voice w = s.voice w := by
  unfold startEmergency
  split
  · rfl
  · next v t h =>
    obtain ⟨free, others⟩ := claimOne_voice h
    have hw : w ≠ v := by
      rintro rfl
      exact used free
    have claimed := others w hw
    dsimp only
    split
    · rw [State.setMonitor, State.setCh_voice, primeVoice_voice_other hw, requestEmergency_voice,
        claimed]
    · rw [releaseVoice_voice, if_neg fun both => hw both.1, claimed]

theorem attemptFill_voice {c : Fin 4} {w : Fin 16} (used : (s.voice w).state ≠ .free) :
    (attemptFill c s).voice w = s.voice w := by
  unfold attemptFill
  dsimp only
  split
  · split
    · exact startEmergency_voice used
    · rfl
  · rfl

theorem judgeBlock_voice {c : Fin 4} {w : Fin 16} (used : (s.voice w).state ≠ .free) :
    (judgeBlock c s).voice w = s.voice w := by
  have monitored (m : Monitor) (b b' : Bool) :
      (if b then if b' then attemptFill c (s.setMonitor c m)
        else raiseAlert (.silence c) (s.setMonitor c m) else s.setMonitor c m).voice w = s.voice w := by
    split
    · split
      · exact attemptFill_voice used
      · exact raiseAlert_voice ..
    · rfl
  unfold judgeBlock
  dsimp only
  split
  · rfl
  · split
    · rfl
    · exact monitored _ _ _

theorem judged_voice {w : Fin 16} (f : TrunkFrame) (used : (s.voice w).state ≠ .free) :
    (s.judged f).voice w = s.voice w := by
  unfold State.judged
  split
  · exact (forChannels_invariant (P := fun u => u.voice w = s.voice w)
      (fun c u hu => (judgeBlock_voice (by rw [hu]; exact used)).trans hu) rfl)
  · rfl

/-! ### The merger leaves what the mix made -/

/-- Everything beside the merger, the FIFO, the ALERT that waits and the reply queue. -/
def State.besideMerger (s : State) :=
  ((s.rx, s.lane, s.clock, s.cues, s.memory, s.store, s.voices, s.events, s.reserve),
    (s.chans, s.gpi, s.gpo, s.asrun, s.forming, s.pending))

theorem betweenByte_besideMerger (s : State) : (betweenByte s).2.besideMerger = s.besideMerger := by
  have passed : (startPass s).2.besideMerger = s.besideMerger := by
    unfold startPass
    split <;> rfl
  have sent (p : Packet) (u : State) : (startLocal p u).2.besideMerger = u.besideMerger := by
    unfold startLocal
    split <;> rfl
  unfold betweenByte
  split
  · split
    · exact sent _ _
    · exact sent _ _
    · exact passed
  · exact passed

theorem mergerByte_besideMerger (s : State) : (mergerByte s).2.besideMerger = s.besideMerger := by
  unfold mergerByte
  split
  · rfl
  · exact betweenByte_besideMerger (setMerger .between s)
  · unfold passByte
    split
    · rfl
    · dsimp only
      split <;> rfl
    · rfl
  · exact betweenByte_besideMerger s

theorem mergerFrame_besideMerger (s : State) : (mergerFrame s).2.besideMerger = s.besideMerger := by
  unfold mergerFrame
  dsimp only
  rw [mergerByte_besideMerger, mergerByte_besideMerger, mergerByte_besideMerger,
    mergerByte_besideMerger]

/-! ### The state after the moves of the next frame -/

/-- Channel c after the moves of the next frame. -/
def State.movedCh (s : State) (c : Fin 4) : Channel :=
  if s.nextAC.toNat % 32 = 0 then duckMoved (s.micLive c) (gainMoved (s.ch c)) else s.ch c

theorem boundaryMoves_moved (h : s.nextAC.toNat % 32 = 0 → ∀ c : Fin 4,
    (s.ch c).state ≠ .joining ∧ (s.ch c).state ≠ .emergency) :
    boundaryMoves s = s.setChans (Vector.ofFn s.movedCh) := by
  by_cases boundary : s.nextAC.toNat % 32 = 0
  · rw [boundaryMoves_eq boundary (h boundary)]
    refine congrArg s.setChans (congrArg Vector.ofFn (funext fun c => ?_))
    rw [State.movedCh, if_pos boundary]
  · have same : Vector.ofFn s.movedCh = s.chans := by
      ext1 i hi
      rw [Vector.getElem_ofFn, State.movedCh, if_neg boundary]
      rfl
    rw [boundaryMoves_elsewhere boundary, same]
    rfl

theorem movedCh_kept (s : State) (c : Fin 4) : (s.movedCh c).state = (s.ch c).state
    ∧ (s.movedCh c).config = (s.ch c).config := by
  unfold State.movedCh
  split <;> exact ⟨rfl, rfl⟩

/-- The part before the mix of its next frame: the gains and ducks moved, the voices played. -/
structure State.Played (s u : State) : Prop where
  channel : ∀ c, u.ch c = s.movedCh c
  voice : ∀ v, u.voice v = s.movedOn v
  outputs : u.forming.outputs = (allVoices.filter fun v => (s.voice v).state == .playing).map s.soundOf
  clock : u.clock = s.clock
  gpi : u.gpi = s.gpi
  tx : u.tx = s.tx

theorem played_beforeMix (h : s.Uneventful) (still : s.nextAC.toNat % 32 = 0 → ∀ c : Fin 4,
    (s.ch c).state ≠ .joining ∧ (s.ch c).state ≠ .emergency) (steady : ∀ v, voiceSteady s v) :
    s.Played (handleThrough 15 (boundaryMoves (reachMoments (openBreaks s)))) := by
  rw [h.reachMoments, boundaryMoves_moved (s := s.setForming .ready) still]
  have movedCh (c : Fin 4) : (s.setForming .ready).movedCh c = s.movedCh c := rfl
  have sounded := handleThrough_steady (t := (s.setForming .ready).setChans
    (Vector.ofFn (s.setForming .ready).movedCh)) rfl fun v =>
      voiceSteady_alike (t := s) rfl rfl (fun _ => rfl) (steady v)
  have beside := sounded.beside
  have voices := sounded.voice
  have outputs := sounded.outputs
  generalize handleThrough 15 ((s.setForming .ready).setChans _) = u at *
  simp only [State.besidePlay, Prod.mk.injEq] at beside
  obtain ⟨⟨-, -, tx, clock, -⟩, chans, gpi, -⟩ := beside
  refine ⟨fun c => ?_, fun v => ?_, outputs, clock, gpi, tx⟩
  · rw [ch_of_chans chans, ch_setChans_ofFn]
    rfl
  · rw [voices, if_pos (mem_allVoices v)]
    rfl

theorem State.Played.used {v : Fin 16} {u : State} (h : s.Played u)
    (playing : (s.voice v).state = .playing) : u.voice v =
      (s.voice v).advance (s.entry ((s.voice v).clip.getD 0)).length
        ∧ (u.voice v).state ≠ .free := by
  have moved : u.voice v = _ := (h.voice v).trans (if_pos playing)
  refine ⟨moved, ?_⟩
  rw [moved, (advance_owner _ _).2, playing]
  decide

/-! ### The steps after the frame -/

theorem judged_gpi (f : TrunkFrame) (s : State) : (s.judged f).gpi = s.gpi := by
  unfold State.judged
  split
  · exact forChannels_keeps State.gpi _
      (fun c u => (State.sameAround_of_eq (judgeBlock_around (c := c) (s := u))).gpi) _
  · rfl

/-- After a frame with no contact function that acts, a voice in use is where it was, and so is every
channel where no block ends. -/
theorem afterFrame_passive {f : TrunkFrame} {gpi : Byte} (h : ∀ g, (s.gpiLine g).fn.Passive) :
    (∀ v, (s.voice v).state ≠ .free → (afterFrame f gpi s).voice v = s.voice v)
      ∧ (s.nextAC.toNat % 32 ≠ 31 → ∀ c, (afterFrame f gpi s).ch c = s.ch c) := by
  have line (g : Fin 8) : ((s.judged f).gpiLine g).fn.Passive := by
    rw [State.gpiLine, judged_gpi]
    exact h g
  have sampled : (afterFrame f gpi s).voices = (s.judged f).voices
      ∧ (afterFrame f gpi s).chans = (s.judged f).chans := by
    rw [afterFrame_eq]
    split
    · have lines := (sampleLines_passive gpi (l := allGpi) (by decide) line).beside
      have whole : sampleLines gpi (s.judged f) = _ := lines
      rw [whole]
      exact ⟨rfl, rfl⟩
    · exact ⟨rfl, rfl⟩
  obtain ⟨voices, chans⟩ := sampled
  refine ⟨fun v used => (voice_of_voices voices v).trans (judged_voice f used), fun inside c => ?_⟩
  have same : s.judged f = s.framed f := if_neg fun at_ => inside (beq_iff_eq.1 at_)
  rw [ch_of_chans chans, same]
  rfl

/-! ### The frame formed -/

/-- The multiplier sum of a channel's voices, as a sum over the voices that play for it. -/
theorem mixSum_soundOf (c : Fin 4) (x : Channel) (side : Nat) (n : Int)
    (owned : ∀ v, (s.voice v).state = .playing → (s.voice v).owner.isSome = true) :
    mixSum c x ((allVoices.filter fun v => (s.voice v).state == .playing).map s.soundOf) side n =
      ((allVoices.filter fun v => (s.voice v).state == .playing
          && (s.voice v).owner.any fun o => o.channel == c).map fun v =>
        voiceTerm x.duck side (s.soundOf v)).sum + n * (multiplier x.gain : Int) := by
  have same (v : Fin 16) : (((s.soundOf v).channel == c) && (s.voice v).state == .playing) =
      ((s.voice v).state == .playing && (s.voice v).owner.any fun o => o.channel == c) := by
    by_cases playing : (s.voice v).state = .playing
    · obtain ⟨o, ho⟩ := Option.isSome_iff_exists.1 (owned v playing)
      simp [State.soundOf, playing, ho]
    · rw [beq_eq_false_iff_ne.2 playing, Bool.and_false, Bool.false_and]
  rw [mixSum, List.filter_map, List.filter_filter, List.map_map]
  refine congrArg (· + _) (congrArg List.sum ?_)
  refine congrArg (List.map _) (List.filter_congr fun v _ => ?_)
  exact same v

/-- What the slots of a frame carry in which voices play and channels mix. -/
structure State.Carries (s : State) (carried : Option (Vector Sample 16)) (slots : Vector Sample 16) :
    Prop where
  own : ∀ c, (s.ch c).state ≠ .halted → (s.ch c).config.slotL < 16 → (s.ch c).config.slotR < 16 →
    (s.ch c).config.slotL ≠ (s.ch c).config.slotR →
    (∀ d, d ≠ c → (s.ch d).state ≠ .halted → ∀ k, (s.ch c).slots k → ¬ (s.ch d).slots k) →
    (slotAt slots (s.ch c).config.slotL).toInt = mixedSide c (s.movedCh c)
        ((allVoices.filter fun v => (s.voice v).state == .playing).map s.soundOf) carried 0
        (s.ch c).config.slotL
      ∧ (slotAt slots (s.ch c).config.slotR).toInt = mixedSide c (s.movedCh c)
        ((allVoices.filter fun v => (s.voice v).state == .playing).map s.soundOf) carried 1
        (s.ch c).config.slotR
  other : ∀ k, (∀ c, (s.ch c).state ≠ .halted → ¬ (s.ch c).slots k) →
    slotAt slots k = slotAt (carried.getD (Vector.replicate 16 0)) k

theorem mem_allChannels (c : Fin 4) : c ∈ allChannels := by
  revert c
  decide

theorem mixAll_carries {u : State} (played : s.Played u) (carried : Option (Vector Sample 16)) :
    s.Carries carried (mixAll carried u).1 := by
  have kept (c : Fin 4) : (u.ch c).state = (s.ch c).state ∧ (u.ch c).config = (s.ch c).config := by
    rw [played.channel]
    exact movedCh_kept s c
  refine ⟨fun c on inL inR two others => ?_, fun k hk => ?_⟩
  · have sides := mixSome_slots (carried := carried) (l := allChannels) (by decide)
      (p := (carried.getD (Vector.replicate 16 0), u)) (c := c) (mem_allChannels c)
      (by rw [(kept c).1]; exact on) (by rw [(kept c).2]; exact inL) (by rw [(kept c).2]; exact inR)
      (by rw [(kept c).2]; exact two) fun d hd one k hk => by
        rw [Channel.slots, (kept d).2]
        rw [Channel.slots, (kept c).2] at hk
        exact others d hd (by rw [← (kept d).1]; exact one) k hk
    rw [(kept c).2, played.outputs] at sides
    rw [played.channel] at sides
    exact sides
  · refine mixSome_apart (p := (_, u)) fun c _ => ?_
    rw [Channel.slots, (kept c).1, (kept c).2]
    exact hk c

/-- What the merger and the steps after the frame make of the mixed state. -/
theorem afterMix {u w : State} (played : s.Played u) (mixed : u.Mixed w)
    (passive : ∀ g, (s.gpiLine g).fn.Passive) (slots : Vector Sample 16) (gpi : Byte) :
    let t := afterFrame (makeFrame slots (mergerFrame w).1) gpi (mergerFrame w).2
    (∃ f, t.tx.sent = some f ∧ f.slots = slots)
      ∧ (∀ v, (s.voice v).state = .playing →
        t.voice v = (s.voice v).advance (s.entry ((s.voice v).clip.getD 0)).length)
      ∧ (s.nextAC.toNat % 32 ≠ 31 → ∀ c, (t.ch c).gain = (s.movedCh c).gain
        ∧ (t.ch c).duck = (s.movedCh c).duck)
      ∧ t.clock = { s.clock with ac := s.nextAC, noneFormed := false } := by
  have merged := mergerFrame_besideMerger w
  dsimp only
  generalize mergerFrame w = x at *
  simp only [State.besideMerger, Prod.mk.injEq] at merged
  obtain ⟨⟨-, -, clock, -, -, -, voices, -⟩, chans, gpi', -⟩ := merged
  have work := mixed.besideWork
  simp only [State.besideWork, Prod.mk.injEq] at work
  obtain ⟨⟨-, -, -, clock', -⟩, -, gpi'', -⟩ := work
  have clocked : x.2.clock = s.clock := clock.trans (clock'.trans played.clock)
  have next : x.2.nextAC = s.nextAC := by rw [State.nextAC, clocked, State.nextAC]
  have lines (g : Fin 8) : (x.2.gpiLine g).fn.Passive := by
    rw [State.gpiLine, gpi', gpi'', played.gpi]
    exact passive g
  have beside := afterFrame_besideFrame (makeFrame slots x.1) gpi x.2
  obtain ⟨after, inside⟩ := afterFrame_passive (f := makeFrame slots x.1) (gpi := gpi) lines
  generalize afterFrame (makeFrame slots x.1) gpi x.2 = t at *
  simp only [State.besideFrame, Prod.mk.injEq] at beside
  obtain ⟨-, -, tx, clock'', -⟩ := beside
  refine ⟨⟨makeFrame slots x.1, congrArg Egress.sent tx, rfl⟩, fun v playing => ?_,
    fun off c => ?_, ?_⟩
  · obtain ⟨moved, used⟩ := played.used playing
    have same : x.2.voice v = u.voice v :=
      (voice_of_voices voices v).trans (voice_of_voices mixed.voices v)
    rw [after v (by rw [same]; exact used), same, moved]
  · obtain ⟨-, -, gain, duck⟩ := mixed.kept c
    rw [inside (by rw [next]; exact off), ch_of_chans chans, gain, duck, played.channel]
    exact ⟨rfl, rfl⟩
  · have framed : (x.2.framed (makeFrame slots x.1)).clock =
      { x.2.clock with ac := x.2.nextAC, noneFormed := false } := rfl
    rw [clock'', framed, next, clocked]

/-- The term of a voice in a channel's sum, on the left (0) or the right (1). -/
theorem voiceTerm_soundOf (duck side : Nat) (hside : side = 0 ∨ side = 1) (v : Fin 16) :
    voiceTerm duck side (s.soundOf v) =
      s.voiceOutput (s.voice v) (s.entry ((s.voice v).clip.getD 0)) side
        * (multiplier ((s.voice v).code - duck) : Int) := by
  obtain rfl | rfl := hside <;> rfl

theorem movedCh_gain (s : State) (c : Fin 4) : (s.movedCh c).gain =
    if s.nextAC.toNat % 32 = 0 ∧ (s.ch c).config.enable = true then
      moveToward (s.ch c).gain (s.ch c).gainTarget (s.ch c).gainRate else (s.ch c).gain := by
  unfold State.movedCh
  by_cases boundary : s.nextAC.toNat % 32 = 0
  · by_cases on : (s.ch c).config.enable = true <;> simp [boundary, on, duckMoved, gainMoved]
  · rw [if_neg boundary, if_neg fun both => boundary both.1]

theorem movedCh_duck (s : State) (c : Fin 4) : (s.movedCh c).duck =
    if s.nextAC.toNat % 32 = 0 then moveToward (s.ch c).duck
      (if ∃ g : Fin 8, (s.gpiLine g).fn = .micLive c ∧ (s.gpiLine g).stable = true then
        (s.ch c).config.duckDepth else 0) (s.ch c).config.duckRate else (s.ch c).duck := by
  unfold State.movedCh
  by_cases boundary : s.nextAC.toNat % 32 = 0
  · rw [if_pos boundary, if_pos boundary]
    have live := micLive_iff s c
    simp only [← live]
    rfl
  · rw [if_neg boundary, if_neg boundary]

theorem playing_uneventful (h : playingOn s) : s.Uneventful := by
  obtain ⟨settled, forming, events, inbox, build, assembly, records, -, -⟩ := h
  exact ⟨settled, forming, events, inbox, build, assembly, fun c r hr => (records c r hr).1,
    fun c r hr => (records c r hr).2.1, fun c r hr => (records c r hr).2.2⟩

/-- The state before the mix of the next frame. -/
def State.beforeMix (s : State) : State :=
  handleThrough 15 (boundaryMoves (reachMoments (openBreaks s)))

theorem formFrame_eq (carried : Option (Vector Sample 16)) (gpi : Byte) (s : State) :
    formFrame carried gpi s =
      afterFrame (makeFrame (mixAll carried s.beforeMix).1 (mergerFrame (mixAll carried s.beforeMix).2).1)
        gpi (mergerFrame (mixAll carried s.beforeMix).2).2 := rfl

/-- A frame formed in a part whose channels mix and whose voices play. -/
theorem formFrame_playing (h : playingOn s) (steady : ∀ v, voiceSteady s v)
    (carried : Option (Vector Sample 16)) (gpi : Byte) :
    let t := formFrame carried gpi s
    (∃ f, t.tx.sent = some f ∧ s.Carries carried f.slots)
      ∧ (∀ v, (s.voice v).state = .playing →
        t.voice v = (s.voice v).advance (s.entry ((s.voice v).clip.getD 0)).length)
      ∧ (s.nextAC.toNat % 32 ≠ 31 → ∀ c, (t.ch c).gain = (s.movedCh c).gain
        ∧ (t.ch c).duck = (s.movedCh c).duck)
      ∧ t.clock = { s.clock with ac := s.nextAC, noneFormed := false } := by
  have uneventful := playing_uneventful h
  obtain ⟨-, -, -, -, -, -, -, still, passive⟩ := h
  have played : s.Played s.beforeMix := played_beforeMix uneventful still steady
  rw [formFrame_eq]
  generalize s.beforeMix = u at *
  have mixed : u.Mixed (mixAll carried u).2 := mixSome_mixed carried allChannels (_, u)
  have carries := mixAll_carries played carried
  generalize mixAll carried u = m at *
  have after := afterMix played mixed passive m.1 gpi
  generalize afterFrame (makeFrame m.1 (mergerFrame m.2).1) gpi (mergerFrame m.2).2 = t at *
  obtain ⟨⟨f, sent, slots⟩, rest⟩ := after
  exact ⟨⟨f, sent, by rw [slots]; exact carries⟩, rest⟩

/-- Each egress frame row forms a frame, whose carried slots are the oldest frame's in transit or none. -/
theorem egressRow_forms {i : Instr} {gpi : Byte} {carried : Option (Vector Sample 16)}
    (due : i = .egressFrameFollow gpi ∧ (∃ f rest, s.tx.transit = f :: rest ∧ carried = some f.slots)
      ∨ carried = none ∧ (i = .holdoverPeriodExpiry gpi ∧ s.tx.mode = .holdover
          ∧ s.tx.awaitFirst = false ∨ i = .firstHoldoverFrame gpi ∧ s.tx.awaitFirst = true)) :
    ∃ x, exec i s = .next (formFrame carried gpi (s.setTx x)) := by
  obtain ⟨rfl, f, rest, transit, rfl⟩ | ⟨rfl, ⟨rfl, mode, first⟩ | ⟨rfl, first⟩⟩ := due
  · have row : exec (.egressFrameFollow gpi) s = .next (followFrame gpi s) := rfl
    rw [row, followFrame, transit]
    exact ⟨_, rfl⟩
  · have row : exec (.holdoverPeriodExpiry gpi) s = .next (holdoverFrame gpi s) :=
      congrArg Host.Outcome.next (if_pos ⟨mode, first⟩)
    rw [row]
    exact ⟨_, rfl⟩
  · have row : exec (.firstHoldoverFrame gpi) s = .next (holdoverFrame gpi s) :=
      congrArg Host.Outcome.next (if_pos first)
    rw [row]
    exact ⟨_, rfl⟩

theorem egressRow_carriesTheMix : Claim.egressFrameCarriesTheMix := by
  intro i gpi s carried playing steady slots due a toward gain duck scale network voices mixed inRange
    owned
  obtain ⟨x, row⟩ := egressRow_forms due
  obtain ⟨⟨f, sent, carries⟩, voice, channel, clock⟩ :=
    formFrame_playing (s := s.setTx x) playing steady carried gpi
  rw [row]
  generalize formFrame carried gpi (s.setTx x) = t at *
  have moved (c : Fin 4) : (s.movedCh c).gain = gain c ∧ (s.movedCh c).duck = duck c :=
    ⟨movedCh_gain s c, movedCh_duck s c⟩
  have summed (c : Fin 4) (side slot : Nat) (hside : side = 0 ∨ side = 1) :
      mixedSide c (s.movedCh c)
        ((allVoices.filter fun v => (s.voice v).state == .playing).map s.soundOf) carried side slot =
      inRange (mixed c side slot) := by
    have scaled (g : Nat) : (multiplier g : Int) = scale g := multiplier_scale g
    rw [mixedSide, saturate_eq, roundMix, mixSum_soundOf c _ side _ owned, (moved c).1, (moved c).2,
      scaled]
    have terms : (fun v => voiceTerm (duck c) side (s.soundOf v)) = fun v =>
        s.voiceOutput (s.voice v) (s.entry ((s.voice v).clip.getD 0)) side
          * scale ((s.voice v).code - duck c) :=
      funext fun v => by rw [voiceTerm_soundOf _ _ hside, scaled]
    rw [terms]
    rfl
  refine ⟨t, f, rfl, sent, fun c on => ?_, fun k hk apart => ?_, voice, fun off c => ?_, clock⟩
  · obtain ⟨inL, inR, two, others⟩ := slots c on
    obtain ⟨left, right⟩ := carries.own c on inL inR two fun d hd one k own other => by
      obtain ⟨notL, notR⟩ := others d hd one k own
      exact other.elim notL notR
    exact ⟨left.trans (summed c 0 _ (.inl rfl)), right.trans (summed c 1 _ (.inr rfl))⟩
  · rw [carries.other k fun c on own => own.elim (apart c on).1 (apart c on).2]
    cases carried with
    | none =>
      have zero : slotAt (Vector.replicate 16 (0 : Sample)) k = 0 := by
        rw [slotAt]
        simp [hk]
      exact congrArg BitVec.toInt zero
    | some w => rfl
  · obtain ⟨hgain, hduck⟩ := channel off c
    exact ⟨hgain.trans (moved c).1, hduck.trans (moved c).2⟩

/-- Settles O19: the frame check, the mix of a channel, the moves before it, and the rows that send it. -/
theorem egressFramesPassTheFrameCheck : Obligations.EgressFramesPassTheFrameCheck :=
  ⟨framesSent_passTheFrameCheck, mixChannel_addsVoicesAndNetwork, gainAndDuck_moveAtBoundaries,
    egressRow_carriesTheMix⟩

end Sys2Proof.Machine
end

section
/-! PROOFS. The open of a break in the frame at S (R139). -/

namespace Sys2Proof.Machine

open Claim

variable {s : State}

/-- The open request of a channel in PREROLL (R69). -/
theorem requestOpen_preroll {c : Fin 4} (hs : (s.ch c).state = .preroll) (level : Nat) :
    requestOpen c level s = ((s.ch c).origin == some .emergency, s.setCh c { s.ch c with
      state := .onBreak, origin := none, returning := false, emClear := false
      gain := if (s.ch c).config.openFade = 0 then min level 4095 else (s.ch c).gain
      gainTarget := min level 4095
      gainRate := fadeRate (distance (min level 4095) (s.ch c).gain) (s.ch c).config.openFade }) := by
  have quiet : ((s.setCh c { s.ch c with
      origin := none, returning := false, emClear := false }).ch c).state.onAir =
        ChannelState.onBreak.onAir := by
    rw [State.ch_setCh_same]
    dsimp only
    rw [hs]
    rfl
  unfold requestOpen
  rw [if_neg (not_not.2 hs)]
  dsimp only
  rw [setChannelState_quiet quiet, State.ch_setCh_same, setCh_twice, fadeGain, State.ch_setCh_same,
    setCh_twice]

/-- Settles O27: the open request, and the record ON_AIR. -/
theorem breakOpensAtItsStart : Obligations.BreakOpensAtItsStart := by
  intro c s r mid flight state start preroll origin
  have due : s.openDue c = true := by simp [State.openDue, flight, state, start]
  have row : exec (.breakOpen c.val) s = .next (openBreak c s) := by
    simp only [exec, execBreakOpen, channelOf_val, openFrame_of_mid mid, due, if_true]
  have fromNetwork : ((s.ch c).origin == some PrerollOrigin.emergency) = false := by
    rw [origin]
    decide
  have same : openBreak c s = _ := if_pos due
  rw [row, same, flight]
  dsimp only
  rw [requestOpen_preroll preroll, fromNetwork, if_neg Bool.false_ne_true, modRecord,
    State.ch_setCh_same, setCh_twice]

end Sys2Proof.Machine
end

section
/-! PROOFS. The rows of one voice in the next frame: VOICE_START, VOICE_END and VOICE_FADED (R48 to R55). -/

namespace Sys2Proof.Machine

open Claim

variable {s t : State} {v : Fin 16}

/-! ### The voice in turn -/

theorem foldl_kept {α β : Type} {f : β → α → β} {b : β} {l : List α} (h : ∀ a ∈ l, f b a = b) :
    l.foldl f b = b := by
  induction l with
  | nil => rfl
  | cons a l ih =>
    rw [List.foldl_cons, h a List.mem_cons_self]
    exact ih fun x hx => h x (List.mem_cons_of_mem a hx)

/-- The voices handled through the one in turn: that one alone. -/
theorem handleThrough_turn (turn : s.forming.cursor = v.val) :
    handleThrough v.val s = handleTurn v s := by
  have sorted : allVoices.Pairwise fun v w : Fin 16 => v.val < w.val := by decide
  obtain ⟨before, after, whole⟩ := List.append_of_mem (mem_allVoices v)
  rw [whole, List.pairwise_append] at sorted
  obtain ⟨-, later, earlier⟩ := sorted
  have taken : s.forming.cursor ≤ v.val ∧ v.val ≤ v.val := ⟨turn.le, le_refl _⟩
  have fold : handleThrough v.val s = allVoices.foldl (fun t w =>
      if t.forming.cursor ≤ w.val ∧ w.val ≤ v.val then handleTurn w t else t) s := rfl
  have waits : before.foldl (fun t w =>
      if t.forming.cursor ≤ w.val ∧ w.val ≤ v.val then handleTurn w t else t) s = s := by
    refine foldl_kept fun w hw => if_neg fun both => ?_
    have ahead := earlier w hw v List.mem_cons_self
    omega
  rw [fold, whole, List.foldl_append, waits, List.foldl_cons, if_pos taken]
  refine foldl_kept fun w hw => if_neg fun both => ?_
  have behind := (List.pairwise_cons.1 later).1 w hw
  omega

/-- A voice row in the voice's own turn. -/
theorem handleVoiceRow_turn {test : State → Fin 16 → Bool} (h : atVoice s v) (due : test s v = true) :
    handleVoiceRow v.val test s = .next (handleTurn v s) := by
  obtain ⟨mid, turn, notOpen⟩ := h
  have opened : openBreaks s = s := by
    rw [openBreaks, openFrame_of_mid mid, openDueBreaks]
    exact forChannels_id fun c => if_neg (by rw [notOpen c]; exact Bool.false_ne_true)
  have now : voiceDue v test s = true := by
    rw [voiceDue, opened, due, Bool.and_true]
    exact decide_eq_true turn.le
  rw [handleVoiceRow, voiceOf_val]
  dsimp only
  rw [if_pos now, opened, handleThrough_turn turn]

theorem startDue_of_playing (playing : (s.voice v).state = .playing) : s.startDue v = false := by
  rw [State.startDue, playing]
  rfl

theorem handleVoice_playing (playing : (s.voice v).state = .playing) :
    handleVoice v s = playVoice v s := by
  rw [handleVoice, startDue_of_playing playing, if_neg Bool.false_ne_true]
  exact if_pos playing

/-! ### The start of a voice (R48, R50) -/

theorem atBoundary_elsewhere {x : Voice} {a : AC} (h : a.toNat % 32 ≠ 0) :
    x.atBoundary a = (x, false) := atBoundary_steady fun at_ => absurd at_ h

theorem advance_within {x : Voice} {n : Nat} (noLoop : x.loop = none)
    (h : x.index + (x.fraction + x.step) / 65536 < n) : x.advance n =
      { x with
        index := x.index + (x.fraction + x.step) / 65536
        fraction := (x.fraction + x.step) % 65536 } := by
  simp only [Voice.advance, noLoop]
  exact if_neg (by omega)

theorem voice_startsAndSounds : voiceStartsAndSounds := by
  intro s v o n f turn x e a primed owner clip noLoop start due off inside before
  have starts : s.startDue v = true := by
    have state : (s.voice v).state = .primed := primed
    have first : (s.voice v).startFrame = some f := start
    rw [State.startDue, state, first]
    simpa using due
  have row : exec (.voiceStart v.val) s = .next (handleTurn v s) := handleVoiceRow_turn turn starts
  have started : startVoice v s = (s.setVoice v { x with state := .playing, startAC := some a }).setEvents
      (s.events ++ [⟨.started, v, a, 0⟩]) := rfl
  have own : (startVoice v s).voice v = { x with state := .playing, startAC := some a } :=
    State.voice_setVoice_same ..
  have playing : ((startVoice v s).voice v).state = .playing := by rw [own]
  have length : (startVoice v s).entry (((startVoice v s).voice v).clip.getD 0) = e := by
    have same : ((startVoice v s).voice v).clip = some n := by
      rw [own]
      exact clip
    rw [same]
    rfl
  have steady : voiceSteady (startVoice v s) v :=
    ⟨fun waits => VoiceState.noConfusion (playing.symm.trans waits), fun _ =>
      ⟨fun _ => by rw [length, own]; exact before, fun at_ => absurd at_ off⟩⟩
  have played : handleVoice v s = playVoice v (startVoice v s) := by
    rw [handleVoice, if_pos starts]
    exact if_pos playing
  have moved : (startVoice v s).movedOn v = { x with
      state := .playing, startAC := some a
      index := x.index + (x.fraction + x.step) / 65536
      fraction := (x.fraction + x.step) % 65536 } := by
    rw [State.movedOn, if_pos playing, length, own]
    exact advance_within noLoop inside
  have sound : (startVoice v s).soundOf v =
      ⟨v, o.channel, s.voiceOutput x e 0, s.voiceOutput x e 1, x.code⟩ := by
    rw [State.soundOf, length, own]
    have owned : x.owner = some o := owner
    rw [owned]
    rfl
  rw [row, handleTurn, played, playVoice_steady steady playing, moved, sound, started]
  exact congrArg (fun u : State => Host.Outcome.next
    ((u.setEvents (s.events ++ [⟨.started, v, a, 0⟩])).setForming { s.forming with
      cursor := v.val + 1
      outputs := s.forming.outputs ++
        [⟨v, o.channel, s.voiceOutput x e 0, s.voiceOutput x e 1, x.code⟩] }))
    (State.setVoice_twice s v { x with state := .playing, startAC := some a } _)

/-! ### The end of a voice (R50, R53, R55) -/

theorem voice_endsOrFades : voiceEndsOrFades := by
  refine ⟨fun s v turn playing noLoop off past => ?_, fun s v rate turn playing ramp unstaged at_ low => ?_⟩
  · have ran : (s.voice v).ranOff (s.entry ((s.voice v).clip.getD 0)).length = true := by
      simp [Voice.ranOff, noLoop, past]
    have due : s.endDue v = true := by
      simp [State.endDue, playing, atBoundary_elsewhere off, ran]
    have row : exec (.voiceEnd v.val) s = .next (handleTurn v s) := handleVoiceRow_turn turn due
    have stopped : playVoice v s = stopVoice .ended v s.nextAC s := by
      unfold playVoice
      dsimp only
      rw [atBoundary_elsewhere off]
      dsimp only
      rw [State.setVoice_own, ran]
      rfl
    rw [row, handleTurn, handleVoice_playing playing, stopped]
    rfl
  · have moved : (s.voice v).atBoundary s.nextAC = ({ s.voice v with code := 0 }, true) := by
      have applied : (s.voice v).applyStaged = s.voice v := by
        rw [Voice.applyStaged, unstaged]
      have boundary : isBoundary s.nextAC = true := beq_iff_eq.2 at_
      have zero : moveToward (s.voice v).code 0 rate = 0 := by
        rw [moveToward, if_neg (Nat.not_lt_zero _)]
        omega
      have moves : (⟨0, rate, 0, true⟩ : Ramp).movesAt s.nextAC = true := by
        simp [Ramp.movesAt, Nat.mod_one]
      rw [Voice.atBoundary, if_pos boundary, applied]
      dsimp only
      simp only [ramp, moves, zero]
      rfl
    have due : s.fadedDue v = true := by
      simp [State.fadedDue, playing, moved]
    have row : exec (.voiceFaded v.val) s = .next (handleTurn v s) := handleVoiceRow_turn turn due
    have stopped : playVoice v s = stopVoice .faded v s.nextAC
        (s.setVoice v { s.voice v with code := 0 }) := by
      unfold playVoice
      dsimp only
      rw [moved]
      rfl
    rw [row, handleTurn, handleVoice_playing playing, stopped, stopVoice, State.voice_setVoice_same,
      State.setVoice_twice]
    rfl

/-- Settles O22: the voice in turn, in the three rows. -/
theorem voicesStartAndStop : Obligations.VoicesStartAndStop := ⟨voice_startsAndSounds, voice_endsOrFades⟩

end Sys2Proof.Machine
end

section
/-! PROOFS. The moments of waiting break records: BREAK_EXPIRY and TIME_TRIGGER (R112, R134, R135). -/

namespace Sys2Proof.Machine

open Claim

variable {s : State} {c : Fin 4} {r : BreakRecord}

theorem releaseHolds_voices (l : List Nat) (s : State) : (releaseHolds l s).voices = s.voices := by
  obtain ⟨d, hd⟩ := releaseHolds_store l s
  rw [hd]
  rfl

/-- A record leaves its channel, from a state in which its as-run records are handed over. -/
theorem removeRecord_leaves {rows : List AsRunRecord} {w : State} (hf : s.formed)
    (hr : s.record c r.number = some r)
    (asrun : w.asrun = ⟨s.asrun.records ++ rows, s.asrun.lost⟩) (chans : w.chans = s.chans)
    (around : w.around c = s.around c) (store : w.store = s.store) (voices : w.voices = s.voices)
    (events : w.events = s.events) : leaves c r rows s (removeRecord c r.number w) := by
  have kept := State.sameAround_of_eq ((removeRecord_around (c := c) r.number).trans around)
  have channel (d : Fin 4) := ch_of_chans chans d
  have same : w.record c r.number = some r := by
    rw [State.record, channel]
    exact hr
  have formed : w.formed := ⟨(State.sameAround_of_eq around).memory ▸ hf.1, store ▸ hf.2⟩
  obtain ⟨-, entries⟩ := removeRecord_returned formed same
  refine ⟨(removeRecord_asrun ..).trans asrun, ?_, fun d hd => ?_, fun n => ?_, kept.memory,
    kept.clock, kept.tx, kept.rx, kept.lane, ?_, ?_, kept.cmd⟩
  · rw [removeRecord_ch same, if_pos rfl, channel]
  · rw [removeRecord_ch same, if_neg hd, channel]
  · rw [entries, entry_of_store store]
    rfl
  · rw [removeRecord_found same, State.setCh_voices, releaseHolds_voices, voices]
  · rw [removeRecord_found same, State.setCh_events, releaseHolds_events, events]

theorem unplannedRows_missed (s : State) (c : Fin 4) (r : BreakRecord) (late : Bool) (planned : AC) :
    unplannedRows s c r .notAired .missed late planned = missedRows s c r late planned := rfl

theorem missedRows_length (s : State) (c : Fin 4) (r : BreakRecord) (late : Bool) (planned : AC) :
    (missedRows s c r late planned).length = r.items.length := by
  simp [missedRows]

theorem removeRecord_missed (hf : s.formed) (hr : s.record c r.number = some r) (late : Bool)
    (planned : AC) (room : s.asrun.records.length + r.items.length ≤ 256) :
    missed c r late planned s (removeRecord c r.number
      (asrunWriteAll (unplannedRows s c r .notAired .missed late planned) s)) := by
  rw [unplannedRows_missed]
  exact removeRecord_leaves hf hr (asrunWriteAll_room (by rwa [missedRows_length]))
    (asrunWriteAll_chans ..) (asrunWriteAll_around _) (asrunWriteAll_store ..) (asrunWriteAll_voices ..)
    (asrunWriteAll_events ..)

/-! ### BREAK_EXPIRY (R112) -/

theorem expiredBreak_isMissed : expiredBreakIsMissed := by
  intro c s r m mid formed low high hr pending expiry passed room _
  have due : s.expiryDue c r.number = true := by simp [State.expiryDue, hr, pending, expiry, passed]
  have row : exec (.breakExpiry c.val r.number) s = .next (expireRecord c r.number s) := by
    simp only [exec, execBreakExpiry, channelOf_val, openFrame_of_mid mid, due, if_true,
      if_pos (And.intro low high)]
  have expired : expireRecord c r.number s = removeRecord c r.number
      (asrunWriteAll (unplannedRows s c r .notAired .missed false m) s) := by
    simp only [expireRecord, due, if_true, hr, expiry, Option.getD_some]
  refine ⟨_, row, ?_⟩
  rw [expired]
  exact removeRecord_missed formed hr false m room

/-! ### TIME_TRIGGER (R134, R135) -/

/-- The judgment of the one TIME record of a channel whose moment has come. -/
theorem judgeTimeRecord_due {target : AC} (hr : s.record c r.number = some r)
    (pending : r.state = .pending) (time : r.trigger = .time target)
    (due : acAtOrBefore (target - 64) s.nextAC = true) :
    judgeTimeRecord c r.number s =
      if (s.ch c).config.lateGrace < (s.nextAC + 64 - target).toNat then
        removeRecord c r.number (asrunWriteAll (unplannedRows s c r .notAired .missed true target) s)
      else if s.freeForBreak c = true then
        (acceptTrigger c r.number (s.nextAC + 64)
          (timeDeadline target (s.nextAC + 64) r.window (s.nextAC + 64 - target).toNat)
          (decide (0 < (s.nextAC + 64 - target).toNat)) s).2
      else s := by
  simp only [judgeTimeRecord, hr, pending, time]
  exact if_pos due

theorem timeBreak_isTriggered : timeBreakIsTriggered := by
  intro c s r target mid formed unjudged queue pending time due late judged
  have hr : s.record c r.number = some r := by
    rw [State.record, queue]
    simp
  have frameDue : s.timeRecordDue c = true := by
    have reached : timeDue target s.nextAC = true := due
    simp only [State.timeRecordDue, queue, unjudged, List.any_cons, List.any_nil, pending, time,
      reached]
    rfl
  have row : exec (.timeTrigger c.val) s = .next (judged (judgeTimeRecord c r.number s)) := by
    have once : judgeTime c s = judged (judgeTimeRecord c r.number s) := by
      rw [judgeTime, unjudged, if_neg Bool.false_ne_true, queue]
      rfl
    simp only [exec, execTimeTrigger, channelOf_val, openFrame_of_mid mid, frameDue, if_true, once]
  rw [row, judgeTimeRecord_due hr pending time due]
  refine ⟨fun missed room _ => ?_, fun inGrace busy => ?_, fun inGrace free => ?_⟩
  · rw [if_pos (by exact missed)]
    exact ⟨_, rfl, removeRecord_missed formed hr true target room⟩
  · rw [if_neg (by exact Nat.not_lt.2 inGrace), busy, if_neg Bool.false_ne_true]
  · rw [if_neg (by exact Nat.not_lt.2 inGrace), if_pos free]
    rfl

/-- Settles O29: the two judgments of a waiting record. -/
theorem expiryAndTimeAreJudged : Obligations.ExpiryAndTimeAreJudged :=
  ⟨expiredBreak_isMissed, timeBreak_isTriggered⟩

end Sys2Proof.Machine
end

section
/-! PROOFS. The silence monitors: the two limits and the judgment of a block (R153 to R159). -/

namespace Sys2Proof.Machine

open Claim

variable {s : State} {c : Fin 4}

/-! ### The start of an emergency fill (R70, R156) -/

theorem requestEmergency_network (h : (s.ch c).state = .network) :
    (requestEmergency c s).1 = true ∧ (requestEmergency c s).2.ch c = { s.ch c with
      state := .emergency, returning := false, emClear := false
      gain := if (s.ch c).config.openFade = 0 then 0 else (s.ch c).gain, gainTarget := 0
      gainRate := fadeRate (distance 0 (s.ch c).gain) (s.ch c).config.openFade } := by
  unfold requestEmergency
  rw [if_neg (not_not.2 h)]
  refine ⟨rfl, ?_⟩
  dsimp only
  rw [fadeGain_ch, setChannelState_ch, State.ch_setCh_same]
  simp only [Nat.zero_min]

/-- What a granted start of an emergency fill leaves. -/
structure State.Covered (s : State) (c : Fin 4) (clip : Nat) (v : Fin 16) (t : State) : Prop where
  channel : t.ch c = { s.ch c with
    state := .emergency, returning := false, emClear := false
    gain := if (s.ch c).config.openFade = 0 then 0 else (s.ch c).gain, gainTarget := 0
    gainRate := fadeRate (distance 0 (s.ch c).gain) (s.ch c).config.openFade
    monitor := { (s.ch c).monitor with
      phase := .covering, emRecord := some ⟨v, clip, (s.entry clip).spotKey, none⟩
      recoveryCount := 0 } }
  voice : (t.voice v).state = .primed ∧ (t.voice v).owner = some ⟨c, .emergency⟩
    ∧ (t.voice v).clip = some clip ∧ (t.voice v).loop.isSome = true
    ∧ (t.voice v).startFrame = some (nextBoundary s.clock.ac)
  entry : t.entry clip = { s.entry clip with hold := (s.entry clip).hold + 1 }
  asrun : t.asrun = s.asrun

/-- The lowest FREE voice is claimed, and the mixer told. -/
def State.emergencyClaimed (s : State) (c : Fin 4) (clip : Nat) (v : Fin 16) : State :=
  (requestEmergency c ((s.setEntry clip { s.entry clip with hold := (s.entry clip).hold + 1 }).setVoice v
    { Voice.freed with state := .reserved, owner := some ⟨c, .emergency⟩, clip := some clip })).2

theorem emergencyClaimed_kept {clip : Nat} {v : Fin 16} (ready : (s.entry clip).state = .ready) :
    (s.emergencyClaimed c clip v).voice v =
        { Voice.freed with state := .reserved, owner := some ⟨c, .emergency⟩, clip := some clip }
      ∧ (s.emergencyClaimed c clip v).entry clip =
        { s.entry clip with hold := (s.entry clip).hold + 1 }
      ∧ (s.emergencyClaimed c clip v).events = s.events
      ∧ (s.emergencyClaimed c clip v).clock = s.clock
      ∧ (s.emergencyClaimed c clip v).asrun = s.asrun := by
  have held : ({ s.entry clip with hold := (s.entry clip).hold + 1 } : DirEntry) ≠ .blank := by
    intro blank
    have state : (s.entry clip).state = .empty := congrArg DirEntry.state blank
    exact absurd (ready.symm.trans state) (by decide)
  have clock (u : State) : (requestEmergency c u).2.clock = u.clock :=
    (State.sameAround_of_eq requestEmergency_around).clock
  unfold State.emergencyClaimed
  rw [requestEmergency_voice, requestEmergency_entry, requestEmergency_events, requestEmergency_asrun,
    clock, State.voice_setVoice_same, State.setVoice_entry, entry_setEntry_self held]
  exact ⟨rfl, rfl, rfl, rfl, rfl⟩

theorem startEmergency_granted {clip : Nat} {v : Fin 16} {free : List (Fin 16)}
    (network : (s.ch c).state = .network) (hv : s.freeVoices = v :: free)
    (ready : (s.entry clip).state = .ready) (calm : s.eventPending v = false) :
    s.Covered c clip v (startEmergency c clip s) := by
  have claimed := claimOne_free (c := c) (p := .emergency) hv ready
  obtain ⟨granted, channel⟩ := requestEmergency_network (c := c)
    (s := (s.setEntry clip { s.entry clip with hold := (s.entry clip).hold + 1 }).setVoice v
      { Voice.freed with state := .reserved, owner := some ⟨c, .emergency⟩, clip := some clip }) network
  rw [← State.emergencyClaimed] at channel
  obtain ⟨voice, entry, events, clock, asrun⟩ := emergencyClaimed_kept (c := c) (v := v) ready
  unfold startEmergency
  rw [claimed]
  dsimp only
  rw [if_pos granted, ← State.emergencyClaimed]
  generalize s.emergencyClaimed c clip v = u at *
  have quiet : u.eventPending v = false := by
    rw [State.eventPending, events]
    exact calm
  rw [primeVoice_held (by rw [voice]) (by rw [voice]) quiet]
  refine ⟨?_, ?_, ?_, ?_⟩
  · rw [setMonitor_ch, State.mon, State.setVoice_ch, channel, entry]
    rfl
  · rw [State.setMonitor, State.setCh_voice, State.voice_setVoice_same, voice, clock]
    exact ⟨rfl, rfl, rfl, rfl, rfl⟩
  · rw [State.setMonitor, State.setCh_entry, State.setVoice_entry, entry]
  · rw [State.setMonitor, State.setCh_asrun, State.setVoice_asrun, asrun]

/-! ### SILENCE_LIMIT_REACHED (R154, R155) -/

/-- The SILENCE level of channel c raised and reported. -/
def State.silenced (s : State) (c : Fin 4) : State :=
  raiseAlert (.silence c) (s.setCh c { s.ch c with
    monitor := { (s.ch c).monitor with silence := true, limitReached := false } })

theorem silenced_ch (s : State) (c : Fin 4) : (s.silenced c).ch c = { s.ch c with
    monitor := { (s.ch c).monitor with silence := true, limitReached := false } } := by
  rw [State.silenced, raiseAlert_ch, State.ch_setCh_same]

theorem reachSilence_due (due : s.silenceDue c = true) :
    reachSilence c s = attemptFill c (s.silenced c) := if_pos due

theorem silenceLimit_raisesTheLevel : silenceLimitRaisesTheLevel := by
  refine ⟨fun c s due manual => ?_, fun c s clip v free due auto network none_ emClip ready hv calm => ?_⟩
  · have row : exec (.silenceLimitReached c.val) s = .next (reachSilence c s) := by
      simp only [exec, execSilenceLimitReached, channelOf_val]
    have stays : attemptFill c (s.silenced c) = s.silenced c := by
      refine if_neg fun all => ?_
      obtain ⟨-, -, auto, -⟩ := all
      rw [silenced_ch, manual] at auto
      exact Bool.false_ne_true auto
    rw [row, reachSilence_due due, stays, State.silenced]
  · have row : exec (.silenceLimitReached c.val) s = .next (reachSilence c s) := by
      simp only [exec, execSilenceLimitReached, channelOf_val]
    have channel := silenced_ch s c
    have fills : attemptFill c (s.silenced c) = startEmergency c clip (s.silenced c) := by
      unfold attemptFill
      dsimp only
      rw [channel]
      dsimp only
      rw [if_pos ⟨rfl, network, auto, none_⟩, emClip]
    rw [row, reachSilence_due due, fills]
    have around := State.sameAround_of_eq ((startEmergency_around (c := c) (s := s.silenced c) clip).trans
      ((raiseAlert_around (c := c) (.silence c)).trans (State.setCh_around c s _)))
    have voices : (s.silenced c).voices = s.voices := raiseAlert_voices ..
    have entry (n : Nat) : (s.silenced c).entry n = s.entry n := raiseAlert_entry ..
    have events : (s.silenced c).events = s.events := raiseAlert_events ..
    have clock : (s.silenced c).clock = s.clock := raiseAlert_clock ..
    have asrun : (s.silenced c).asrun = s.asrun := raiseAlert_asrun ..
    have covered := startEmergency_granted (s := s.silenced c) (c := c) (clip := clip) (v := v)
      (free := free) (by rw [channel]; exact network)
      (by rw [State.freeVoices]; simp only [voice_of_voices voices]; exact hv)
      (by rw [entry]; exact ready) (by rw [State.eventPending, events]; exact calm)
    generalize startEmergency c clip (s.silenced c) = t at *
    obtain ⟨channel', ⟨state, owner, held, loop, start⟩, entry', asrun'⟩ := covered
    rw [channel] at channel'
    rw [entry] at channel' entry'
    rw [clock] at start
    refine ⟨t, rfl, ?_, ?_, ?_, ?_, ?_, ?_, state, owner, held, loop, start, entry', around.memory,
      around.clock, around.tx, around.rx, around.lane, asrun'.trans asrun, around.cmd⟩
    all_goals rw [channel']

/-! ### RECOVERY_LIMIT_REACHED (R159) -/

theorem recoveryLimit_beginsTheReturn : recoveryLimitBeginsTheReturn := by
  intro c s r due record playing fade
  have row : exec (.recoveryLimitReached c.val) s = .next (beginRecovery c s) := by
    simp only [exec, execRecoveryLimitReached, channelOf_val]
  obtain ⟨emergency, stays⟩ : (s.ch c).state = .emergency ∧ (s.ch c).returning = false := by
    simp only [State.recoveryDue, Bool.and_eq_true, beq_iff_eq, Bool.not_eq_true'] at due
    obtain ⟨⟨⟨-, emergency⟩, stays⟩, -⟩ := due
    exact ⟨emergency, stays⟩
  have fades : (fadeToZero r.voice (s.ch c).config.joinFade s).2 = s.setVoice r.voice
      { s.voice r.voice with
        ramp := some ⟨0, fadeRate (s.voice r.voice).code (s.ch c).config.joinFade, 0, true⟩
        staged := none } := by
    unfold fadeToZero
    dsimp only
    rw [if_neg (not_not.2 playing), if_neg fade]
    rfl
  have recorded : (s.mon c).emRecord = some r := record
  rw [row, beginRecovery, if_pos due, recorded]
  dsimp only
  rw [fades, requestRecover]
  simp only [State.setMonitor, State.mon, State.ch_setCh_same, State.setVoice_ch, emergency, stays,
    and_self, if_true, fadeGain, setCh_twice, if_neg fade]
  rfl

/-! ### The judgment of a block (R153, R154, R158) -/

theorem afterFrame_blockEnd (f : TrunkFrame) (gpi : Byte) (last : s.nextAC.toNat % 32 = 31) :
    afterFrame f gpi s = forChannels judgeBlock (s.framed f) := by
  have inside : ¬ (isBoundary s.nextAC = true ∧ s.forming.sampled = false) := by
    intro both
    have first : s.nextAC.toNat % 32 = 0 := beq_iff_eq.1 both.1
    omega
  have judged : s.judged f = forChannels judgeBlock (s.framed f) := if_pos (beq_iff_eq.2 last)
  rw [afterFrame_eq, if_neg inside, judged]

/-- The recovery count after a block (R158). -/
theorem judgeRecovery_eq {x : Channel} {p : Peaks} {recovery : Nat}
    (covered : (x.monitor.phase = .covering ∧ x.state = .emergency ∧ x.returning = false
        ∧ ∃ r a, x.monitor.emRecord = some r ∧ r.startAC = some a ∧ acAtOrAfter p.first a = true) →
      recovery = if x.config.silThreshold ≤ p.ingress
        then min (x.monitor.recoveryCount + 1) 65535 else 0)
    (other : ¬ (x.monitor.phase = .covering ∧ x.state = .emergency ∧ x.returning = false
        ∧ ∃ r a, x.monitor.emRecord = some r ∧ r.startAC = some a ∧ acAtOrAfter p.first a = true) →
      recovery = x.monitor.recoveryCount) : judgeRecovery x p = recovery := by
  unfold judgeRecovery
  obtain none_ | ⟨r, hr⟩ := Option.eq_none_or_eq_some x.monitor.emRecord
  · simp [none_, other]
  · obtain unstarted | ⟨a, ha⟩ := Option.eq_none_or_eq_some r.startAC
    · simp [hr, unstarted, other]
    · simp only [hr, ha, Option.some.injEq, exists_and_left, exists_eq_left'] at covered other ⊢
      split
      · next all => exact (covered all).symm
      · next apart => exact (other apart).symm

/-- A channel with a frame to judge: its counts judged, its level raised or ended. -/
theorem judgeBlock_peaks {p : Peaks} (on : (s.ch c).state ≠ .halted)
    (peaks : (s.ch c).monitor.peaks = some p) :
    let count := if p.egress < (s.ch c).config.silThreshold
      then min ((s.ch c).monitor.silentCount + 1) 65535 else 0
    let reached := decide ((s.ch c).config.silLimit ≤ count)
    let judged (silence limitReached : Bool) : State := s.setCh c { s.ch c with
      monitor := { (s.ch c).monitor with
        silentCount := count, silence := silence, limitReached := limitReached
        recoveryCount := judgeRecovery (s.ch c) p, peaks := none } }
    judgeBlock c s =
      if (s.ch c).monitor.silence = true then
        if reached = true then attemptFill c (judged true false)
        else raiseAlert (.silence c) (judged false false)
      else judged false reached := by
  intro count reached judged
  have same : judgeBlock c s = if (s.ch c).monitor.silence = true then
        if reached = true then attemptFill c (judged ((s.ch c).monitor.silence && reached)
          (reached && !(s.ch c).monitor.silence))
        else raiseAlert (.silence c) (judged ((s.ch c).monitor.silence && reached)
          (reached && !(s.ch c).monitor.silence))
      else judged ((s.ch c).monitor.silence && reached)
        (reached && !(s.ch c).monitor.silence) := by
    unfold judgeBlock
    dsimp only
    rw [peaks]
    exact if_neg on
  rw [same]
  cases (s.ch c).monitor.silence <;> cases reached <;> rfl

theorem block_isJudged : blockIsJudged := by
  refine ⟨fun f gpi s last => afterFrame_blockEnd f gpi last, fun c s => ?_⟩
  intro x m
  refine ⟨?_, ?_⟩
  · rintro (halted | noPeaks)
    · unfold judgeBlock
      dsimp only
      split
      · rfl
      · exact if_pos halted
    · have none_ : (s.ch c).monitor.peaks = none := noPeaks
      unfold judgeBlock
      dsimp only
      rw [none_]
  · intro p recovery on peaks covered hcovered hother count judged
    have recovered : judgeRecovery (s.ch c) p = recovery := judgeRecovery_eq hcovered hother
    have same := judgeBlock_peaks on peaks
    dsimp only at same
    rw [recovered] at same
    rw [same]
    refine ⟨fun level => ?_, fun level low => ?_, fun level high manual => ?_⟩
    · have level' : (s.ch c).monitor.silence = false := level
      rw [level', if_neg Bool.false_ne_true]
    · have level' : (s.ch c).monitor.silence = true := level
      rw [if_pos level', if_neg]
      exact fun reached => absurd (of_decide_eq_true reached) (Nat.not_le.2 low)
    · have level' : (s.ch c).monitor.silence = true := level
      rw [if_pos level', if_pos (decide_eq_true high)]
      refine if_neg fun all => ?_
      obtain ⟨-, -, auto, -⟩ := all
      rw [State.ch_setCh_same] at auto
      have manual' : (s.ch c).config.autoFill = false := manual
      exact Bool.false_ne_true (manual'.symm.trans auto)

/-- Settles O21: the two limits and the judgment of a block. -/
theorem silenceAndRecoveryLimits : Obligations.SilenceAndRecoveryLimits :=
  ⟨silenceLimit_raisesTheLevel, recoveryLimit_beginsTheReturn, block_isJudged⟩

end Sys2Proof.Machine
end

section
/-! PROOFS. The delivery of a voice event to a cart, a silence monitor and a break that is ON_AIR
(R82, R140, R141, R156, R159 to R161). -/

namespace Sys2Proof.Machine

open Claim

variable {s t : State} {c : Fin 4} {e : VoiceEvent} {rest : List VoiceEvent}

/-! ### The event at the front (R60) -/

/-- The owner of a voice takes one of its events. -/
def takeEvent (o : Owner) (e : VoiceEvent) (s : State) : State :=
  match o.purpose with
  | .brk => takeBreakEvent o.channel e s
  | .cart => takeCartEvent o.channel e s
  | .emergency => takeEmergencyEvent o.channel e s

theorem exec_voiceEventDelivery {o : Owner} (opened : s.forming.opened = false)
    (settled : s.settled = true) (events : s.events = e :: rest)
    (owner : (s.voice e.voice).owner = some o) :
    exec .voiceEventDelivery s = .next (takeEvent o e (s.setEvents rest)) := by
  have some_ : s.forming.opened = false ∧ s.events ≠ [] := ⟨opened, by rw [events]; exact List.cons_ne_nil _ _⟩
  have owner' : ((s.setEvents rest).voice e.voice).owner = some o := owner
  have row : exec .voiceEventDelivery s = .next (deliverEvent (settle s)) :=
    congrArg Host.Outcome.next (if_pos some_)
  rw [row, settle_of_settled settled, deliverEvent, events]
  dsimp only
  rw [owner']
  obtain ⟨d, p⟩ := o
  cases p <;> rfl

/-! ### A voice given back after its record -/

/-- A record is handed over and a voice in use given back. -/
theorem recorded_released {r : AsRunRecord} {v : Fin 16} (used : (s.voice v).state ≠ .free)
    (room : s.asrun.records.length < 256) :
    let t := releaseVoice v (asrunWrite r s)
    t.events = s.events.filter (fun q => q.voice != v) ∧ t.voice v = Voice.freed
      ∧ (∀ w, w ≠ v → t.voice w = s.voice w) ∧ t.asrun.records = s.asrun.records ++ [r]
      ∧ (∀ d, t.ch d = s.ch d) := by
  intro t
  have voice (w : Fin 16) : (asrunWrite r s).voice w = s.voice w :=
    voice_of_voices (asrunWrite_voices r s) w
  refine ⟨?_, ?_, fun w hw => ?_, ?_, fun d => ?_⟩
  · have released : t = _ := releaseVoice_used (s := asrunWrite r s) (by rw [voice]; exact used)
    rw [released, State.setVoice_events, releaseHolds_events, State.setEvents_events,
      asrunWrite_events]
  · rw [releaseVoice_voice, voice, if_pos ⟨rfl, used⟩]
  · rw [releaseVoice_voice, if_neg fun both => hw both.1, voice]
  · rw [releaseVoice_asrun, asrunWrite_room room]
  · rw [releaseVoice_ch]
    exact ch_of_chans (asrunWrite_chans r s) d

theorem recorded_released_around (r : AsRunRecord) (v : Fin 16) (c : Fin 4) (s : State) :
    (releaseVoice v (asrunWrite r s)).around c = s.around c := by
  rw [releaseVoice_around, asrunWrite_around]

/-! ### The cart logic (R82) -/

theorem cartEnd_writesItsRecord : cartEndWritesItsRecord := by
  intro s e rest c r a opened settled events finishing used owner found started room
  have row := exec_voiceEventDelivery opened settled events owner
  have taken : takeEvent ⟨c, .cart⟩ e (s.setEvents rest) = takeCartEvent c e (s.setEvents rest) := rfl
  obtain ⟨events', freed, others, asrun, channels⟩ := recorded_released
    (s := s.setEvents rest) (r := cartRow c r .full .none
      (some (airedBetween (r.startAC.getD (e.ac + e.shift)) (e.ac + e.shift)))) used room
  have around := recorded_released_around (cartRow c r .full .none
    (some (airedBetween (r.startAC.getD (e.ac + e.shift)) (e.ac + e.shift)))) e.voice c
    (s.setEvents rest)
  have found' : ((s.setEvents rest).ch c).carts.find? (fun q => q.voice == e.voice) = some r := found
  rw [row, taken, takeCartEvent]
  dsimp only
  rw [if_neg finishing, found']
  dsimp only
  rw [started] at asrun around events' freed others channels ⊢
  rw [Option.getD_some] at asrun around events' freed others channels ⊢
  generalize releaseVoice e.voice (asrunWrite _ (s.setEvents rest)) = u at *
  have kept (x : Channel) := State.sameAround_of_eq (((State.setCh_around c u x).trans around).trans
    (State.setEvents_around c s rest))
  rw [channels c]
  exact ⟨_, rfl, events', freed, State.ch_setCh_same .., asrun, (kept _).memory, (kept _).clock,
    (kept _).tx, (kept _).rx, (kept _).lane, (kept _).cmd, (kept _).ch, others⟩

/-! ### The silence monitor (R156, R159 to R161) -/

theorem takeEmergencyEvent_started {r : EmRecord} (record : (s.ch c).monitor.emRecord = some r)
    (started : e.kind = .started) : takeEmergencyEvent c e s = s.setCh c { s.ch c with
      monitor := { (s.ch c).monitor with
        emRecord := some { r with startAC := some (e.ac + e.shift) } } } := by
  have record' : (s.mon c).emRecord = some r := record
  rw [takeEmergencyEvent]
  dsimp only
  rw [record']
  exact if_pos started

/-- The emergency clear request after a recovered fill (R72): back in NETWORK with the gain at unity, and
kept as a mark while the gain moves. -/
theorem requestEmergencyClear_recovering (emergency : (s.ch c).state = .emergency)
    (returning : (s.ch c).returning = true) :
    ((s.ch c).gain = 3840 → (requestEmergencyClear c s).ch c =
        { s.ch c with state := .network, returning := false, emClear := false })
      ∧ ((s.ch c).gain ≠ 3840 → (requestEmergencyClear c s).ch c =
        { s.ch c with emClear := true }) := by
  have asked : requestEmergencyClear c s =
      finishReturn c (s.setCh c { s.ch c with emClear := true }) :=
    if_pos ⟨.inl emergency, returning⟩
  have unity : Config.unityCode = 3840 := rfl
  rw [asked]
  refine ⟨fun stands => ?_, fun moves => ?_⟩
  · have done : ((s.setCh c { s.ch c with emClear := true }).ch c).returnDone = true := by
      rw [State.ch_setCh_same, Channel.returnDone]
      simp [returning, stands, unity]
    have state : ((s.setCh c { s.ch c with emClear := true }).ch c).state = .emergency := by
      rw [State.ch_setCh_same]
      exact emergency
    have back : finishReturn c (s.setCh c { s.ch c with emClear := true }) = _ := if_pos ⟨state, done⟩
    rw [back, setChannelState_ch]
    simp only [State.ch_setCh_same]
  · have waits : ((s.setCh c { s.ch c with emClear := true }).ch c).returnDone = false := by
      rw [State.ch_setCh_same, Channel.returnDone]
      simp [moves, unity]
    rw [finishReturn_waits waits, State.ch_setCh_same]

/-- What the end of a fill leaves beside the monitor's own request to the mixer. -/
theorem takeEmergencyEvent_finished {r : EmRecord} {a : AC}
    (record : (s.ch c).monitor.emRecord = some r) (finishing : e.kind ≠ .started)
    (started : r.startAC = some a)
    (phase : (s.ch c).monitor.phase = .recovering ∨ (s.ch c).monitor.phase = .yielding) :
    takeEmergencyEvent c e s =
      if (s.ch c).monitor.phase = .recovering then
        requestEmergencyClear c ((releaseVoice r.voice (asrunWrite (emergencyRow c r .full .none
          (some (airedBetween a (e.ac + e.shift)))) s)).setCh c { s.ch c with
            monitor := { (s.ch c).monitor with phase := .none, emRecord := none } })
      else (releaseVoice r.voice (asrunWrite (emergencyRow c r .full .none
          (some (airedBetween a (e.ac + e.shift)))) s)).setCh c { s.ch c with
            monitor := { (s.ch c).monitor with phase := .none, emRecord := none } } := by
  have record' : (s.mon c).emRecord = some r := record
  have channel (x : AsRunRecord) : (releaseVoice r.voice (asrunWrite x s)).ch c = s.ch c := by
    rw [releaseVoice_ch]
    exact ch_of_chans (asrunWrite_chans x s) c
  rw [takeEmergencyEvent]
  dsimp only
  rw [record']
  dsimp only
  rw [if_neg finishing, started, Option.getD_some, State.setMonitor, State.mon, State.mon, channel]
  exact if_pos phase

theorem emergencyEvents_areTaken : emergencyEventsAreTaken := by
  intro s e rest c r opened settled events owner record
  have row := exec_voiceEventDelivery opened settled events owner
  have taken : takeEvent ⟨c, .emergency⟩ e (s.setEvents rest) =
      takeEmergencyEvent c e (s.setEvents rest) := rfl
  refine ⟨fun started => ?_, fun a finishing own started used room phase => ?_⟩
  · rw [row, taken, takeEmergencyEvent_started (s := s.setEvents rest) record started]
    rfl
  · intro m
    have ended := takeEmergencyEvent_finished (s := s.setEvents rest) record finishing started
      (phase.symm.imp_left fun all => all.1)
    rw [own] at ended
    obtain ⟨events', freed, others, asrun, channels⟩ := recorded_released
      (s := s.setEvents rest) (r := emergencyRow c r .full .none
        (some (airedBetween a (e.ac + e.shift)))) used room
    have around := recorded_released_around (emergencyRow c r .full .none
      (some (airedBetween a (e.ac + e.shift)))) e.voice c (s.setEvents rest)
    rw [row, taken, ended]
    generalize releaseVoice e.voice (asrunWrite _ (s.setEvents rest)) = u at *
    have ended_ : (s.setEvents rest).ch c = s.ch c := rfl
    rw [ended_]
    have own_ : (u.setCh c { s.ch c with monitor := m }).ch c = { s.ch c with monitor := m } :=
      State.ch_setCh_same ..
    have kept : (u.setCh c { s.ch c with monitor := m }).around c = s.around c :=
      ((State.setCh_around c u _).trans around).trans (State.setEvents_around c s rest)
    have voices : (u.setCh c { s.ch c with monitor := m }).voices = u.voices := rfl
    have events'' : (u.setCh c { s.ch c with monitor := m }).events = u.events := rfl
    have asrun'' : (u.setCh c { s.ch c with monitor := m }).asrun = u.asrun := rfl
    have written : ∀ t : State, t.voices = u.voices → t.events = u.events → t.asrun = u.asrun →
        t.around c = s.around c →
        t.events = rest.filter (fun q => q.voice != e.voice) ∧ t.voice e.voice = Voice.freed
          ∧ (∀ v, v ≠ e.voice → t.voice v = s.voice v)
          ∧ t.asrun.records = s.asrun.records ++ [emergencyRow c r .full .none
            (some (airedBetween a (e.ac + e.shift)))] ∧ s.SameAround c t := by
      intro t hv he ha hr
      refine ⟨he.trans events', (voice_of_voices hv _).trans freed, fun v hne =>
        (voice_of_voices hv v).trans (others v hne), (congrArg AsRunQueue.records ha).trans asrun,
        State.sameAround_of_eq hr⟩
    generalize u.setCh c { s.ch c with monitor := m } = w at *
    by_cases recovering : (s.ch c).monitor.phase = .recovering
    · obtain ⟨emergency, returning⟩ : (s.ch c).state = .emergency ∧ (s.ch c).returning = true := by
        obtain yields | ⟨-, emergency, returning⟩ := phase
        · rw [yields] at recovering
          cases recovering
        · exact ⟨emergency, returning⟩
      obtain ⟨stands, moves⟩ := requestEmergencyClear_recovering (s := w) (c := c)
        (by rw [own_]; exact emergency) (by rw [own_]; exact returning)
      rw [own_] at stands moves
      obtain ⟨h1, h2, h3, h4, same⟩ := written (requestEmergencyClear c w)
        ((requestEmergencyClear_voices c w).trans voices)
        ((requestEmergencyClear_events c w).trans events'')
        ((requestEmergencyClear_asrun c w).trans asrun'') (requestEmergencyClear_around.trans kept)
      rw [if_pos recovering]
      exact ⟨_, rfl, h1, h2, h3, h4, fun yields => EmPhase.noConfusion (yields.symm.trans recovering),
        fun _ => stands, fun _ => moves, same.ch, same.memory, same.clock, same.tx, same.rx, same.cmd⟩
    · obtain ⟨h1, h2, h3, h4, same⟩ := written w voices events'' asrun'' kept
      rw [if_neg recovering]
      exact ⟨w, rfl, h1, h2, h3, h4, fun _ => own_, fun is => absurd is recovering,
        fun is => absurd is recovering, same.ch, same.memory, same.clock, same.tx, same.rx, same.cmd⟩

/-! ### A break that is ON_AIR (R140, R141) -/

/-- The parts of one kind changed. -/
def onKind (k : PartKind) (f : Part → Part) (x : Part) : Part := if x.kind = k then f x else x

/-- A part that starts. -/
def Part.sounds (a : AC) (fade : FadeInForce) (x : Part) : Part :=
  { x with state := .sounding, startAC := some a, fade := fade }

/-- A part that ends. -/
def Part.ends (a : AC) (k : EventKind) (x : Part) : Part :=
  { x with state := .finished, endAC := some a, finish := some k }

theorem onKind_kind {k : PartKind} {f : Part → Part} (hf : ∀ x, (f x).kind = x.kind) (x : Part) :
    (onKind k f x).kind = x.kind := by
  unfold onKind
  split
  · exact hf x
  · rfl

theorem onKind_other {k : PartKind} {f : Part → Part} {x : Part} (h : x.kind ≠ k) :
    onKind k f x = x := if_neg h

theorem modParts_withPart (c : Fin 4) (n : Nat) (k : PartKind) (f : Part → Part) (s : State) :
    modParts c n (onKind k f) s = s.setCh c { s.ch c with
      queue := withPart n k f (s.ch c).queue } := rfl

theorem modParts_ch (c d : Fin 4) (n : Nat) (k : PartKind) (f : Part → Part) (s : State) :
    (modParts c n (onKind k f) s).ch d = if d = c then
      { s.ch c with queue := withPart n k f (s.ch c).queue } else s.ch d := modRecord_ch c d n _ s

theorem modParts_record {r : BreakRecord} (hr : s.record c r.number = some r) (f : Part → Part) :
    (modParts c r.number f s).record c r.number = some (mapParts f r) := by
  rw [modParts_eq, modRecord_record (f := mapParts f) (fun _ => rfl), hr, Option.map_some, changeRecord, if_pos rfl]

theorem parts_of_run {r : BreakRecord} {u : Run} (h : r.run = some u) : r.parts = u.parts := by
  rw [BreakRecord.parts, h]

theorem mapParts_parts {r : BreakRecord} {u : Run} (h : r.run = some u) (f : Part → Part) :
    (mapParts f r).parts = u.parts.map f :=
  parts_of_run (u := { u with parts := u.parts.map f }) (by rw [mapParts, h]; rfl)

/-- A part found among the parts before a change that leaves it, and makes no part before it fit. -/
theorem find?_map_kept {l : List Part} {test : Part → Bool} {g : Part → Part} {q : Part}
    (h : l.find? test = some q) (hq : g q = q) (hg : ∀ x, test x = false → test (g x) = false) :
    (l.map g).find? test = some q := by
  rw [List.find?_eq_some_iff_append] at h ⊢
  obtain ⟨fits, before, after, whole, apart⟩ := h
  refine ⟨fits, before.map g, after.map g, ?_, fun y hy => ?_⟩
  · rw [whole, List.map_append, List.map_cons, hq]
  · obtain ⟨x, hx, rfl⟩ := List.mem_map.1 hy
    have no := hg x (by simpa using apart x hx)
    simpa using no

theorem takeBreakEvent_onAir {r : BreakRecord} (flight : s.flight c = some r) :
    takeBreakEvent c e s = if e.kind = .started then takeStarted c r e.voice (e.ac + e.shift) s
      else takeFinished c r e.voice e.kind (e.ac + e.shift) s := by
  rw [takeBreakEvent, flight]

/-- The part that starts, and the item before it. -/
theorem takeStarted_onAir {r : BreakRecord} {u : Run} {p : Part} {v : Fin 16} {a : AC}
    (onAir : r.state = .onAir) (run : r.run = some u)
    (found : u.parts.find? (fun x => x.voice == v && x.state == .primed) = some p) :
    let t := modParts c r.number (onKind p.kind (Part.sounds a p.fade)) s
    (p.kind = .fill ∨ (∃ m, p.kind = .item 1 m) → takeStarted c r v a s = t)
      ∧ ∀ k m, p.kind = .item (k + 1) m → 1 ≤ k →
        takeStarted c r v a s = fadePredecessor c r.number (k + 1) t := by
  intro t
  have joins : ¬ r.state = .joining := by
    rw [onAir]
    decide
  have whole : takeStarted c r v a s = match r.state, p.kind with
      | .onAir, .item k _ => if k ≥ 2 then fadePredecessor c r.number k t else t
      | _, _ => t := by
    unfold takeStarted
    rw [parts_of_run run, found]
    dsimp only
    rw [if_neg joins]
    rfl
  rw [whole, onAir]
  refine ⟨?_, fun k m kind low => ?_⟩
  · rintro (kind | ⟨m, kind⟩)
    · rw [kind]
    · rw [kind]
      rfl
  · rw [kind]
    exact if_pos (by omega)

theorem rampVoice_out {v : Fin 16} (playing : (s.voice v).state = .playing) (rate interval : Nat) :
    (rampVoice v 0 rate interval true s).2 = s.setVoice v { s.voice v with
      ramp := some ⟨0, min (max rate 1) 255, min interval 3, true⟩, staged := none } := by
  have clamped : clampNat 1 255 rate = min (max rate 1) 255 := rfl
  rw [rampVoice]
  dsimp only
  rw [if_neg (not_not.2 playing), explicitRamp, clamped]
  rfl

/-- The own fade-out of placed item k, which still sounds, when item k + 1 has started. -/
theorem fadePredecessor_fades {r : BreakRecord} {k j : Nat} {q : Part} {it : Item} {f : ItemFade}
    (hr : s.record c r.number = some r)
    (found : r.parts.find? (fun x => PartKind.isPlacedItem k x.kind) = some q)
    (kind : q.kind = .item k j) (sounding : q.state = .sounding) (fade : q.fade = .none)
    (item : r.items[j - 1]? = some it) (fadeOut : it.fadeOut = some f)
    (playing : (s.voice q.voice).state = .playing) :
    fadePredecessor c r.number (k + 1) s =
      modParts c r.number (onKind q.kind fun x => { x with fade := .own })
        (s.setVoice q.voice { s.voice q.voice with
          ramp := some ⟨0, min (max f.rate 1) 255, min f.interval 3, true⟩, staged := none }) := by
  have before : partFor r.parts (PartKind.isPlacedItem (k + 1 - 1)) = some q := found
  unfold fadePredecessor
  rw [hr]
  dsimp only
  rw [before]
  dsimp only
  rw [if_pos ⟨sounding, fade⟩, kind]
  dsimp only
  rw [item]
  dsimp only
  rw [fadeOut]
  dsimp only
  rw [rampVoice_out playing]
  rfl

/-- The part that ends, and the next of its voice. -/
theorem takeFinished_onAir {r : BreakRecord} {u : Run} {p : Part} {v : Fin 16} {k : EventKind} {a : AC}
    (onAir : r.state = .onAir) (run : r.run = some u)
    (found : u.parts.find? (fun x => x.voice == v && x.state == .sounding) = some p) :
    takeFinished c r v k a s = primeNext c r.number v
      (modParts c r.number (onKind p.kind (Part.ends a k)) s) := by
  have joins : ¬ r.state = .joining := by
    rw [onAir]
    decide
  unfold takeFinished
  rw [parts_of_run run, found]
  dsimp only
  rw [if_neg joins, if_pos onAir]
  rfl

theorem primeNext_rests {r : BreakRecord} {v : Fin 16} (hr : s.record c r.number = some r)
    (none_ : r.parts.find? (fun x => x.voice == v && x.state == .waiting) = none) :
    primeNext c r.number v s = s := by
  unfold primeNext
  rw [hr]
  dsimp only
  rw [none_]
  split
  · next h => cases h
  · rfl

theorem primeHold_ready (x : Voice) {clip : Nat} (ready : (s.entry clip).state = .ready) :
    ∃ t, primeHold x clip s = some t ∧ t.events = s.events := by
  unfold primeHold
  by_cases same : x.clip = some clip
  · exact ⟨s, if_pos same, rfl⟩
  · rw [if_neg same, holdClip_ready ready]
    dsimp only
    obtain none_ | ⟨old, hold⟩ := Option.eq_none_or_eq_some x.clip
    · rw [none_]
      exact ⟨_, rfl, rfl⟩
    · rw [hold]
      exact ⟨_, rfl, rfl⟩

/-- A RESERVED voice accepts: it is primed, whatever clip it held. -/
theorem primeVoice_accepts {v : Fin 16} {q : PrimeReq} (reserved : (s.voice v).state = .reserved)
    (calm : s.eventPending v = false) (ready : (s.entry q.clip).state = .ready) :
    (primeVoice v q s).1 = true ∧ (primeVoice v q s).2.events = s.events
      ∧ ∃ e : DirEntry, (primeVoice v q s).2.voice v = { s.voice v with
        state := .primed, clip := some q.clip, index := 0, fraction := 0
        step := clampNat 32768 98304 (q.step.getD (baseStep e.rate)), loop := primeLoop e q.loop
        startFrame := some q.start, code := (primeRamp (min q.code Config.maxCode) q.ramp).1
        ramp := some (primeRamp (min q.code Config.maxCode) q.ramp).2, staged := none } := by
  obtain ⟨t, held, events⟩ := primeHold_ready (s.voice v) ready
  have takes : ¬ ((s.voice v).state ≠ .reserved ∨ s.eventPending v = true) := by
    rw [reserved, calm]
    decide
  unfold primeVoice
  dsimp only
  rw [if_neg takes, held]
  exact ⟨rfl, events, t.entry q.clip, State.voice_setVoice_same ..⟩

/-- The prime request of a placed item. -/
theorem primeRequest_item {r : BreakRecord} {plan : Plan} {k m : Nat} {it : Item} {i : PlanItem}
    {start : AC} (item : r.items[m - 1]? = some it)
    (planned : plan.items.find? (fun x => x.number == m) = some i) (starts : r.start = some start) :
    ∃ x, primeRequest s c r plan (.item k m) = some x ∧ x.clip = it.clip ∧ x.step = some i.step
      ∧ x.loop = false ∧ x.start = start + BitVec.ofInt 32 i.start
      ∧ x.code = (if it.fadeIn.isSome then 0 else targetCode it.level (s.entry it.clip).trim)
      ∧ ∀ code, (primeRamp code x.ramp).1 = code := by
  have found : plan.item? m = some i := planned
  unfold primeRequest
  dsimp only
  rw [item, found, starts]
  refine ⟨_, rfl, rfl, rfl, rfl, rfl, rfl, fun _ => ?_⟩
  cases it.fadeIn <;> rfl

/-- The next part of the voice is primed. -/
theorem primeNext_primes {r : BreakRecord} {plan : Plan} {v : Fin 16} {p : Part} {q : PrimeReq}
    (hr : s.record c r.number = some r) (hplan : r.plan = some plan)
    (found : r.parts.find? (fun x => x.voice == v && x.state == .waiting) = some p)
    (request : primeRequest s c r plan p.kind = some q) (accepts : (primeVoice v q s).1 = true) :
    primeNext c r.number v s = modParts c r.number (onKind p.kind fun x => { x with state := .primed })
      (primeVoice v q s).2 := by
  unfold primeNext
  rw [hr]
  dsimp only
  rw [hplan, found]
  dsimp only
  rw [request]
  exact if_pos accepts

theorem breakEvents_moveTheParts : breakEventsMoveTheParts := by
  intro s e rest c r u p opened settled events owner flight record onAir run at_ moved
  have row := exec_voiceEventDelivery opened settled events owner
  have taken : takeEvent ⟨c, .brk⟩ e (s.setEvents rest) = takeBreakEvent c e (s.setEvents rest) := rfl
  have event := takeBreakEvent_onAir (s := s.setEvents rest) (c := c) (e := e) (r := r) flight
  have record' : (s.setEvents rest).record c r.number = some r := record
  rw [row, taken, event]
  refine ⟨fun started found first => ?_, fun k m j q it f started found kind low before qkind sounding
    fade item fadeOut playing => ?_, fun finishing found waits => ?_,
    fun plan q k m it i start formed finishing found next qkind apart hplan starts item planned reserved
      calm ready => ?_⟩
  · rw [if_pos started, (takeStarted_onAir onAir run found).1 first]
    rfl
  · have differs : q.kind ≠ p.kind := by
      rw [qkind, kind]
      intro same
      exact absurd (PartKind.item.inj same).1 (by omega)
    rw [if_pos started, (takeStarted_onAir onAir run found).2 k m kind low]
    have started' := modParts_record record' (onKind p.kind (Part.sounds at_ p.fade))
    have before' : (mapParts (onKind p.kind (Part.sounds at_ p.fade)) r).parts.find?
        (fun x => PartKind.isPlacedItem k x.kind) = some q := by
      rw [mapParts_parts run]
      refine find?_map_kept before (onKind_other differs) fun x no => ?_
      have same : (onKind p.kind (Part.sounds at_ p.fade) x).kind = x.kind :=
        onKind_kind (f := Part.sounds at_ p.fade) (fun _ => rfl) x
      rw [same]
      exact no
    have faded := fadePredecessor_fades
      (s := modParts c r.number (onKind p.kind (Part.sounds at_ p.fade)) (s.setEvents rest))
      (r := mapParts (onKind p.kind (Part.sounds at_ p.fade)) r) started' before' qkind sounding fade item fadeOut playing
    refine ⟨_, congrArg Host.Outcome.next faded, rfl, State.voice_setVoice_same .., fun v hv =>
      State.voice_setVoice_other _ _ _ _ hv, ?_, fun d hd => ?_, rfl, rfl, rfl, rfl⟩
    · exact (modParts_ch ..).trans (by rw [if_pos rfl, State.setVoice_ch, modParts_ch, if_pos rfl]; rfl)
    · exact (modParts_ch ..).trans (by rw [if_neg hd, State.setVoice_ch, modParts_ch, if_neg hd]; rfl)
  · have none_ : (mapParts (onKind p.kind (Part.ends at_ e.kind)) r).parts.find?
        (fun x => x.voice == e.voice && x.state == .waiting) = none := by
      rw [mapParts_parts run, List.find?_eq_none]
      intro y hy
      obtain ⟨x, hx, rfl⟩ := List.mem_map.1 hy
      unfold onKind
      split
      · simp [Part.ends]
      · simpa using waits x hx
    have rests := primeNext_rests
      (modParts_record record' (onKind p.kind (Part.ends at_ e.kind))) none_
    rw [if_neg finishing, takeFinished_onAir onAir run found]
    exact congrArg Host.Outcome.next rests
  · rw [if_neg finishing, takeFinished_onAir onAir run found]
    have next' : (mapParts (onKind p.kind (Part.ends at_ e.kind)) r).parts.find?
        (fun x => x.voice == e.voice && x.state == .waiting) = some q := by
      rw [mapParts_parts run]
      refine find?_map_kept next (onKind_other apart) fun x no => ?_
      unfold onKind
      split
      · simp [Part.ends]
      · exact no
    obtain ⟨x, request, clip, step, loop, start', code, first⟩ := primeRequest_item (c := c)
      (s := modParts c r.number (onKind p.kind (Part.ends at_ e.kind)) (s.setEvents rest))
      (r := mapParts (onKind p.kind (Part.ends at_ e.kind)) r) (k := k) item planned starts
    have ended := modParts_record record' (onKind p.kind (Part.ends at_ e.kind))
    have channels (d : Fin 4) := modParts_ch c d r.number p.kind (Part.ends at_ e.kind) (s.setEvents rest)
    have around : (modParts c r.number (onKind p.kind (Part.ends at_ e.kind)) (s.setEvents rest)).around c
      = s.around c := (modParts_around r.number _).trans (State.setEvents_around c s rest)
    have voice (v : Fin 16) : (modParts c r.number (onKind p.kind (Part.ends at_ e.kind))
      (s.setEvents rest)).voice v = s.voice v := rfl
    have entry (n : Nat) : (modParts c r.number (onKind p.kind (Part.ends at_ e.kind))
      (s.setEvents rest)).entry n = s.entry n := rfl
    have left : (modParts c r.number (onKind p.kind (Part.ends at_ e.kind))
      (s.setEvents rest)).events = rest := rfl
    have asrun : (modParts c r.number (onKind p.kind (Part.ends at_ e.kind))
      (s.setEvents rest)).asrun = s.asrun := rfl
    generalize modParts c r.number (onKind p.kind (Part.ends at_ e.kind)) (s.setEvents rest) = w at *
    have quiet : w.eventPending e.voice = false := by
      rw [State.eventPending, left, List.any_eq_false]
      exact fun y hy same => calm y hy (beq_iff_eq.1 same)
    obtain ⟨accepts, kept, d, primed⟩ := primeVoice_accepts (s := w) (v := e.voice) (q := x)
      (by rw [voice]; exact reserved) quiet (by rw [clip, entry]; exact ready)
    have whole := primeNext_primes (r := mapParts (onKind p.kind (Part.ends at_ e.kind)) r) ended hplan
      next' (by rw [qkind]; exact request) accepts
    have around' := State.sameAround_of_eq ((primeVoice_around (c := c) e.voice x).trans around)
    have others (v : Fin 16) (hv : v ≠ e.voice) := (primeVoice_voice_other hv x w).trans (voice v)
    have channels' (d : Fin 4) := primeVoice_ch e.voice x w d
    have asrun' := (primeVoice_asrun e.voice x w).trans asrun
    have row' : (Host.Outcome.next (primeNext c r.number e.voice w) : Result) = .next _ :=
      congrArg Host.Outcome.next whole
    rw [row']
    generalize (primeVoice e.voice x w).2 = y at *
    have low : min x.code Config.maxCode =
        if it.fadeIn.isSome then 0 else targetCode it.level (s.entry it.clip).trim := by
      rw [code, entry]
      split
      · exact Nat.zero_min _
      · exact Nat.min_eq_left (targetCode_le ..)
    refine ⟨_, rfl, kept.trans left, ?_, ?_, ?_, ?_, ?_, ?_, ?_, ?_, ?_, others, ?_, fun d' hd => ?_, asrun',
      around'.clock, around'.memory⟩
    · exact congrArg Voice.state primed
    · exact (congrArg Voice.clip primed).trans (congrArg some clip)
    · exact (congrArg Voice.owner primed).trans (congrArg Voice.owner (voice e.voice) |>.trans owner)
    · exact (congrArg Voice.startFrame primed).trans (congrArg some start')
    · refine (congrArg Voice.step primed).trans ?_
      rw [step]
      rfl
    · exact congrArg Voice.index primed
    · exact congrArg Voice.fraction primed
    · refine (congrArg Voice.loop primed).trans ?_
      rw [loop]
      rfl
    · refine (congrArg Voice.code primed).trans ?_
      rw [first, low]
    · refine (modParts_ch ..).trans ?_
      rw [if_pos rfl, channels', channels, if_pos rfl]
      rfl
    · refine (modParts_ch ..).trans ?_
      rw [if_neg hd, channels', channels, if_neg hd]
      rfl

/-- Settles O26: an event delivered to each of the three owners. -/
theorem cartEndWritesItsRecord : Obligations.CartEndWritesItsRecord :=
  ⟨cartEnd_writesItsRecord, emergencyEvents_areTaken, breakEvents_moveTheParts⟩

end Sys2Proof.Machine
end

section
/-! PROOFS. A trigger accepted: the fill, the plan and the claim (R111, R119, R129 to R131, R137). -/

namespace Sys2Proof.Machine

open Claim

variable {s : State} {c : Fin 4} {r : BreakRecord}

/-! ### The record taken into PREROLL (R111, R119) -/

theorem entry_setEntry_used {n : Nat} {e : DirEntry} (he : e ≠ .blank) (m : Nat) (s : State) :
    (s.setEntry n e).entry m = if m = n then e else s.entry m := by
  split
  · next h =>
    subst h
    exact entry_setEntry_self he s
  · next h => exact lookupD_storeD_of_ne DirEntry.blank e h

theorem ready_ne_blank {e : DirEntry} (ready : e.state = .ready) (n : Nat) :
    ({ e with hold := n } : DirEntry) ≠ .blank := by
  intro blank
  have state : e.state = .empty := congrArg DirEntry.state blank
  exact absurd (ready.symm.trans state) (by decide)

/-- The fill clip a trigger takes: the record's own, or the channel's with a hold. -/
theorem triggerFill_eq (hr : s.record c r.number = some r) :
    (triggerFill c r.number s = s ∧ fillTaken c s r = r.fillClip)
      ∨ ∃ f, r.fillClip = none ∧ (s.entry f).state = .ready ∧ fillTaken c s r = some f
        ∧ triggerFill c r.number s = modRecord c r.number (fun r => { r with fillClip := some f })
          (s.setEntry f { s.entry f with hold := (s.entry f).hold + 1 }) := by
  unfold triggerFill fillTaken
  rw [hr]
  dsimp only
  obtain none_ | ⟨n, own⟩ := Option.eq_none_or_eq_some r.fillClip
  · rw [none_]
    obtain unset | ⟨f, set⟩ := Option.eq_none_or_eq_some (s.ch c).config.fillClip
    · rw [unset]
      exact .inl ⟨rfl, rfl⟩
    · rw [set]
      by_cases ready : (s.entry f).state = .ready
      · refine .inr ⟨f, rfl, ready, ?_, ?_⟩
        · simp [Option.filter, ready]
        · dsimp only
          rw [holdClip_ready ready]
      · refine .inl ⟨?_, ?_⟩
        · dsimp only
          rw [holdClip_notReady ready]
        · simp [Option.filter, ready]
  · rw [own]
    exact .inl ⟨rfl, rfl⟩

/-- Record r of channel c in PREROLL, with S, D and its fill. -/
def triggered (c : Fin 4) (s : State) (r : BreakRecord) (start : AC) (deadline : Option AC) :
    BreakRecord :=
  { r with start := some start, deadline := deadline, fillClip := fillTaken c s r, state := .preroll }

/-- The state in which the plan is made. -/
def State.triggered (s : State) (c : Fin 4) (n : Nat) (start : AC) (deadline : Option AC) : State :=
  modRecord c n (fun r => { r with state := .preroll }) (triggerFill c n
    (modRecord c n (fun r => { r with start := some start, deadline := deadline }) s))

/-- The hold a trigger takes on the channel's fill clip. -/
def fillHold (c : Fin 4) (s : State) (r : BreakRecord) (m : Nat) : Nat :=
  if r.fillClip = none ∧ fillTaken c s r = some m then 1 else 0

/-- State u is s with record n of channel c become q and further holds h taken on the clips. -/
structure State.Told (s : State) (c : Fin 4) (n : Nat) (q : BreakRecord) (h : Nat → Nat) (u : State) :
    Prop where
  record : u.record c n = some q
  queue : ∃ l, u.ch c = { s.ch c with queue := l }
    ∧ l.filter (fun x => x.number != n) = (s.ch c).queue.filter (fun x => x.number != n)
  around : u.around c = s.around c
  voices : u.voices = s.voices
  events : u.events = s.events
  asrun : u.asrun = s.asrun
  alert : u.alert = s.alert
  entry : ∀ m, u.entry m = { s.entry m with hold := (s.entry m).hold + h m }
  formed : s.formed → u.formed

variable {n : Nat} {q : BreakRecord} {h : Nat → Nat} {u : State}

theorem State.told_refl (hr : s.record c n = some q) : s.Told c n q (fun _ => 0) s :=
  ⟨hr, ⟨(s.ch c).queue, rfl, rfl⟩, rfl, rfl, rfl, rfl, rfl, fun _ => rfl, id⟩

theorem number_of_record (hr : s.record c n = some q) : q.number = n := by
  simpa using List.find?_some hr

theorem filter_changeRecord {f : BreakRecord → BreakRecord} (hf : ∀ q, (f q).number = q.number)
    (l : List BreakRecord) : (l.map (changeRecord n f)).filter (fun x => x.number != n) =
      l.filter fun x => x.number != n := by
  rw [List.filter_map]
  have same : (fun x : BreakRecord => x.number != n) ∘ changeRecord n f = fun x => x.number != n :=
    funext fun x => by rw [Function.comp, changeRecord_number hf]
  rw [same]
  refine (List.map_congr_left fun x hx => ?_).trans (List.map_id _)
  have other : x.number ≠ n := by simpa using (List.mem_filter.1 hx).2
  rw [changeRecord, if_neg other, id]

theorem State.Told.modRecord (told : s.Told c n q h u) {f : BreakRecord → BreakRecord}
    (hf : ∀ q, (f q).number = q.number) : s.Told c n (f q) h (Machine.modRecord c n f u) := by
  obtain ⟨l, queue, kept⟩ := told.queue
  refine ⟨?_, ⟨l.map (changeRecord n f), ?_, ?_⟩, (modRecord_around n f).trans told.around, told.voices,
    told.events, told.asrun, told.alert, told.entry, told.formed⟩
  · rw [modRecord_record hf, told.record, Option.map_some, changeRecord,
      if_pos (number_of_record told.record)]
  · rw [modRecord_ch, if_pos rfl, queue]
  · rw [filter_changeRecord hf, kept]

theorem State.Told.held (told : s.Told c n q h u) {k : Nat} (ready : (u.entry k).state = .ready) :
    s.Told c n q (fun m => h m + if m = k then 1 else 0)
      (u.setEntry k { u.entry k with hold := (u.entry k).hold + 1 }) := by
  refine ⟨told.record, told.queue, (State.setEntry_around ..).trans told.around, told.voices, told.events,
    told.asrun, told.alert, fun m => ?_, fun hs => ?_⟩
  · rw [entry_setEntry_used (ready_ne_blank ready _)]
    split
    · next same =>
      subst same
      rw [told.entry]
      rfl
    · exact told.entry m
  · obtain ⟨memory, canonical⟩ := told.formed hs
    exact ⟨memory, setEntry_canonical u k _ canonical⟩

/-- The taking of a trigger (R111, R119). -/
theorem triggered_told (hr : s.record c r.number = some r) (start : AC) (deadline : Option AC) :
    s.Told c r.number (triggered c s r start deadline) (fillHold c s r)
      (s.triggered c r.number start deadline) := by
  have first := (State.told_refl hr).modRecord
    (f := fun r => { r with start := some start, deadline := deadline }) fun _ => rfl
  have same : fillTaken c (modRecord c r.number (fun r => { r with
      start := some start, deadline := deadline }) s) { r with start := some start, deadline := deadline } =
        fillTaken c s r := by
    unfold fillTaken
    rw [modRecord_ch, if_pos rfl]
    rfl
  unfold State.triggered
  generalize modRecord c r.number (fun r => { r with start := some start, deadline := deadline }) s = u
    at *
  obtain ⟨own, taken⟩ | ⟨f, none_, ready, taken, filled⟩ := triggerFill_eq
    (r := { r with start := some start, deadline := deadline }) first.record
  · have noHold : fillHold c s r = fun _ => 0 := funext fun m => if_neg fun both => by
      rw [← same, taken] at both
      exact absurd (both.1.symm.trans both.2) (by simp)
    have record : triggered c s r start deadline = { r with
        start := some start, deadline := deadline, state := .preroll } := by
      rw [triggered, ← same, taken]
    rw [noHold, record]
    have last := first.modRecord (f := fun r => { r with state := .preroll }) fun _ => rfl
    have own' : triggerFill c r.number u = u := own
    rw [own']
    exact last
  · have holds : fillHold c s r = fun m => 0 + if m = f then 1 else 0 := funext fun m => by
      rw [fillHold, ← same, taken, Nat.zero_add]
      refine if_congr ?_ rfl rfl
      exact ⟨fun both => (Option.some.inj both.2).symm, fun eq => ⟨none_, congrArg some eq.symm⟩⟩
    have record : triggered c s r start deadline = { r with
        start := some start, deadline := deadline, fillClip := some f, state := .preroll } := by
      rw [triggered, ← same, taken]
    rw [holds, record]
    have last := ((first.held ready).modRecord (f := fun r => { r with fillClip := some f })
      fun _ => rfl).modRecord (f := fun r => { r with state := .preroll }) fun _ => rfl
    have filled' : triggerFill c r.number u = _ := filled
    rw [filled']
    exact last

/-! ### The plan and the claim (R119, R129 to R131) -/

/-- What the planner reads of record r of channel c. -/
def planInput (c : Fin 4) (s : State) (r : BreakRecord) (start : AC) (deadline : Option AC)
    (late : Bool) : PlanInput where
  start := start
  deadline := deadline
  late := late
  items := planItems s r
  fill := (fillTaken c s r).isSome
  joinFade := (s.ch c).config.joinFade
  threshold := (s.ch c).config.fillThreshold

theorem planItems_told {x : BreakRecord} (told : s.Told c n q h u) (hx : x.items = r.items) :
    planItems u x = planItems s r := by
  unfold planItems
  rw [hx]
  refine List.map_congr_left fun p _ => ?_
  rw [told.entry]

/-- A trigger taken: the plan made, then the empty plan, the refused claim or the start. -/
theorem acceptTrigger_eq (hr : s.record c r.number = some r) (start : AC) (deadline : Option AC)
    (late : Bool) :
    let q := triggered c s r start deadline
    let u := s.triggered c r.number start deadline
    let plan := makePlan (planInput c s r start deadline late)
    (plan.isEmpty = true → acceptTrigger c r.number start deadline late s =
        (.emptyPlan, endEmptyPlan c q plan u))
      ∧ (plan.isEmpty = false → s.freeVoices.length < 2 + s.reserve →
        acceptTrigger c r.number start deadline late s = (.refused, endRefusedClaim c q plan u))
      ∧ ∀ a b free, plan.isEmpty = false → s.freeVoices = a :: b :: free →
        2 + s.reserve ≤ s.freeVoices.length →
        acceptTrigger c r.number start deadline late s = (.granted, startBreak c r.number plan (a, b)
          ((u.setVoice a { Voice.freed with state := .reserved, owner := some ⟨c, .brk⟩ }).setVoice b
            { Voice.freed with state := .reserved, owner := some ⟨c, .brk⟩ })) := by
  intro q u plan
  have told : s.Told c r.number q (fillHold c s r) u := triggered_told hr start deadline
  obtain ⟨l, queue, -⟩ := told.queue
  have free : u.freeVoices = s.freeVoices := by
    rw [State.freeVoices, State.freeVoices]
    simp only [voice_of_voices told.voices]
  have reserve : u.reserve = s.reserve := (State.sameAround_of_eq told.around).reserve
  have input : planItems u q = planItems s r := planItems_told told rfl
  have same : makePlan {
      start := start, deadline := deadline, late := late, items := planItems u q
      fill := q.fillClip.isSome, joinFade := (u.ch c).config.joinFade
      threshold := (u.ch c).config.fillThreshold } = plan := by
    rw [input, queue]
    rfl
  rw [acceptTrigger, ← State.triggered, told.record]
  dsimp only
  rw [same]
  refine ⟨fun empty => if_pos empty, fun some_ few => ?_, fun a b rest some_ two many => ?_⟩
  · rw [some_, if_neg Bool.false_ne_true, claimBreak, free, reserve, if_pos few]
  · rw [some_, if_neg Bool.false_ne_true, claimBreak, free, reserve, if_neg (Nat.not_lt.2 many), two]

end Sys2Proof.Machine
end

section
/-! PROOFS. The start of a break whose claim was granted (R130, R133, R137, R138). -/

namespace Sys2Proof.Machine

open Claim

variable {s t u w : State} {c : Fin 4} {n : Nat} {r q : BreakRecord} {a b : Fin 16}

/-! ### Priming the break's voices (R138) -/

theorem primeNext_cases (c : Fin 4) (n : Nat) (v : Fin 16) (s : State) : primeNext c n v s = s
    ∨ ∃ x f, primeNext c n v s = modParts c n f (primeVoice v x s).2 := by
  unfold primeNext
  split
  · exact .inl rfl
  · split
    · split
      · exact .inl rfl
      · next x _ =>
        dsimp only
        split
        · exact .inr ⟨x, _, rfl⟩
        · exact .inl rfl
    · exact .inl rfl

theorem primeVoice_owned {v : Fin 16} {x : PrimeReq} (used : (s.voice v).state ≠ .free) :
    ((primeVoice v x s).2.voice v).owner = (s.voice v).owner
      ∧ ((primeVoice v x s).2.voice v).state ≠ .free := by
  unfold primeVoice
  dsimp only
  split
  · exact ⟨rfl, used⟩
  · split
    · exact ⟨rfl, used⟩
    · rw [State.voice_setVoice_same]
      exact ⟨rfl, VoiceState.noConfusion⟩

/-- State t has the break's record q, up to the state of its parts, and its two voices; all else that a
start leaves is as in u. -/
structure State.Starting (u : State) (c : Fin 4) (n : Nat) (q : BreakRecord) (a b : Fin 16) (t : State) :
    Prop where
  record : ∃ x, t.record c n = some x ∧ x.state = q.state ∧ x.start = q.start ∧ x.deadline = q.deadline
    ∧ x.fillClip = q.fillClip ∧ x.plan = q.plan ∧ x.parts.length = q.parts.length
  channel : (t.ch c).state = (u.ch c).state ∧ (t.ch c).origin = (u.ch c).origin
  owned : ∀ v, v = a ∨ v = b → (t.voice v).owner = some ⟨c, .brk⟩ ∧ (t.voice v).state ≠ .free
  others : ∀ v, v ≠ a → v ≠ b → t.voice v = u.voice v
  asrun : t.asrun = u.asrun
  memory : t.memory = u.memory
  clock : t.clock = u.clock

theorem parts_length_mapParts (f : Part → Part) (x : BreakRecord) :
    (mapParts f x).parts.length = x.parts.length := by
  unfold mapParts BreakRecord.parts
  cases x.run with
  | none => rfl
  | some l => exact List.length_map _

theorem State.Starting.primed (h : u.Starting c n q a b t) {v : Fin 16} (own : v = a ∨ v = b) :
    u.Starting c n q a b (primeNext c n v t) := by
  obtain same | ⟨x, f, same⟩ := primeNext_cases c n v t
  · rw [same]
    exact h
  · rw [same]
    have around := State.sameAround_of_eq (primeVoice_around (c := c) (s := t) v x)
    have chans := primeVoice_ch v x t
    have asrun := primeVoice_asrun v x t
    have used (k : Fin 16) (hk : k = a ∨ k = b) :
        ((primeVoice v x t).2.voice k).owner = (t.voice k).owner
          ∧ ((primeVoice v x t).2.voice k).state ≠ .free := by
      by_cases hkv : k = v
      · rw [hkv]
        exact primeVoice_owned (h.owned v own).2
      · rw [primeVoice_voice_other hkv]
        exact ⟨rfl, (h.owned k hk).2⟩
    have others (k : Fin 16) (hk : k ≠ v) := primeVoice_voice_other hk x t
    generalize (primeVoice v x t).2 = y at *
    obtain ⟨z, found, state, start, deadline, fill, plan, parts⟩ := h.record
    have found' : y.record c n = some z := by
      rw [State.record, chans]
      exact found
    refine ⟨⟨mapParts f z, ?_, state, start, deadline, fill, plan,
      (parts_length_mapParts f z).trans parts⟩, ?_, fun k hk => ?_, fun k hka hkb => ?_,
      asrun.trans h.asrun, around.memory.trans h.memory, around.clock.trans h.clock⟩
    · rw [modParts_eq, modRecord_record (f := mapParts f) (fun _ => rfl), found', Option.map_some,
        changeRecord, if_pos (number_of_record found')]
    · rw [modParts_eq, modRecord_ch, if_pos rfl, chans]
      exact h.channel
    · have mine := used k hk
      exact ⟨mine.1.trans (h.owned k hk).1, mine.2⟩
    · refine (others k ?_).trans (h.others k hka hkb)
      obtain rfl | rfl := own
      · exact hka
      · exact hkb

/-! ### The start (R130, R133, R137) -/

theorem requestPreroll_from (hs : (s.ch c).state = .network ∨ (s.ch c).state = .emergency) :
    (requestPreroll c s).2.ch c = { s.ch c with
      state := .preroll
      origin := if (s.ch c).state = .network then some .network else some .emergency } := by
  unfold requestPreroll
  obtain network | emergency := hs
  · simp only [network]
    rw [setChannelState_ch, State.ch_setCh_same]
    rfl
  · simp only [emergency]
    rw [setChannelState_ch, State.ch_setCh_same]
    rfl

theorem itemParts_length (v : Fin 16 × Fin 16) (k : Nat) (l : List PlanItem) :
    (itemParts v k l).length = l.length := by
  induction l generalizing k with
  | nil => rfl
  | cons p l ih => rw [itemParts, List.length_cons, ih, List.length_cons]

theorem makeRun_length (p : Plan) (v : Fin 16 × Fin 16) : (makeRun p v).parts.length =
    p.placed.length + if p.fillStart.isSome then 1 else 0 := by
  rw [makeRun, List.length_append, itemParts_length]
  split <;> rfl

/-- The start of a break whose two voices are claimed. -/
theorem startBreak_starting (hr : s.record c n = some q)
    (hs : (s.ch c).state = .network ∨ (s.ch c).state = .emergency)
    (owned : ∀ v, v = a ∨ v = b → (s.voice v).owner = some ⟨c, .brk⟩ ∧ (s.voice v).state ≠ .free)
    (plan : Plan) : ∃ u : State, (u.ch c).state = .preroll
      ∧ (u.ch c).origin = (if (s.ch c).state = .network then some .network else some .emergency)
      ∧ u.voices = s.voices ∧ u.asrun = s.asrun ∧ u.memory = s.memory ∧ u.clock = s.clock
      ∧ u.Starting c n { q with
        plan := some { plan with voices := some (a, b) }, run := some (makeRun plan (a, b)) } a b
        (startBreak c n plan (a, b) s) := by
  have record := modRecord_record (c := c) (n := n) (f := fun r : BreakRecord => { r with
    plan := some { plan with voices := some (a, b) }, run := some (makeRun plan (a, b)) })
    (fun _ => rfl) n s
  rw [hr, Option.map_some, changeRecord, if_pos (number_of_record hr)] at record
  have same := State.sameAround_of_eq (modRecord_around (c := c) (s := s) n fun r : BreakRecord => { r with
    plan := some { plan with voices := some (a, b) }, run := some (makeRun plan (a, b)) })
  have channel := modRecord_ch c c n (fun r : BreakRecord => { r with
    plan := some { plan with voices := some (a, b) }, run := some (makeRun plan (a, b)) }) s
  rw [if_pos rfl] at channel
  have sounds : (modRecord c n (fun r : BreakRecord => { r with
      plan := some { plan with voices := some (a, b) }, run := some (makeRun plan (a, b)) }) s).voices =
        s.voices ∧ (modRecord c n (fun r : BreakRecord => { r with
      plan := some { plan with voices := some (a, b) }, run := some (makeRun plan (a, b)) }) s).asrun =
        s.asrun := ⟨modRecord_voices .., modRecord_asrun ..⟩
  rw [startBreak]
  dsimp only
  generalize modRecord c n _ s = w at *
  obtain ⟨voices, asrun⟩ := sounds
  have state : (w.ch c).state = (s.ch c).state := by rw [channel]
  have preroll := requestPreroll_from (s := w) (c := c) (by rw [state]; exact hs)
  have around := State.sameAround_of_eq (requestPreroll_around (c := c) (s := w))
  have voices' := (requestPreroll_voices c w).trans voices
  have asrun' := (requestPreroll_asrun c w).trans asrun
  rw [state] at preroll
  generalize (requestPreroll c w).2 = u at *
  have start : u.Starting c n { q with
      plan := some { plan with voices := some (a, b) }, run := some (makeRun plan (a, b)) } a b u := by
    refine ⟨⟨_, ?_, rfl, rfl, rfl, rfl, rfl, rfl⟩, ⟨rfl, rfl⟩, fun v hv => ?_, fun _ _ _ => rfl, rfl, rfl,
      rfl⟩
    · rw [State.record, preroll]
      exact record
    · rw [voice_of_voices voices']
      exact owned v hv
  refine ⟨u, ?_, ?_, voices', asrun', around.memory.trans same.memory, around.clock.trans same.clock,
    (start.primed (.inl rfl)).primed (.inr rfl)⟩
  · rw [preroll]
  · rw [preroll]

/-- Settles O30: the trigger taken, the claim, and the start. -/
theorem grantedTriggerStartsThePreroll : Obligations.GrantedTriggerStartsThePreroll := by
  intro c s r start deadline late a b free hr _ hs two many fill plan some_
  have told := triggered_told hr start deadline
  obtain ⟨-, -, grants⟩ := acceptTrigger_eq hr start deadline late
  have granted := grants a b free some_ two many
  rw [granted]
  generalize s.triggered c r.number start deadline = w at *
  obtain ⟨l, queue, -⟩ := told.queue
  have same := State.sameAround_of_eq told.around
  have claimed (v : Fin 16) (hv : v = a ∨ v = b) : ((w.setVoice a { Voice.freed with
      state := .reserved, owner := some ⟨c, .brk⟩ }).setVoice b { Voice.freed with
      state := .reserved, owner := some ⟨c, .brk⟩ }).voice v =
        { Voice.freed with state := .reserved, owner := some ⟨c, .brk⟩ } := by
    by_cases hb : v = b
    · rw [hb, State.voice_setVoice_same]
    · rw [State.voice_setVoice, if_neg hb, hv.resolve_right hb, State.voice_setVoice_same]
  have unclaimed (v : Fin 16) (ha : v ≠ a) (hb : v ≠ b) : ((w.setVoice a { Voice.freed with
      state := .reserved, owner := some ⟨c, .brk⟩ }).setVoice b { Voice.freed with
      state := .reserved, owner := some ⟨c, .brk⟩ }).voice v = s.voice v := by
    rw [State.voice_setVoice, if_neg hb, State.voice_setVoice, if_neg ha, voice_of_voices told.voices]
  obtain ⟨u, preroll, origin, voices, asrun, memory, clock, starting⟩ := startBreak_starting (a := a) (b := b)
    (s := (w.setVoice a { Voice.freed with state := .reserved, owner := some ⟨c, .brk⟩ }).setVoice b
      { Voice.freed with state := .reserved, owner := some ⟨c, .brk⟩ }) (c := c) told.record
    (by rw [State.setVoice_ch, State.setVoice_ch, queue]; exact hs)
    (fun v hv => by rw [claimed v hv]; exact ⟨rfl, VoiceState.noConfusion⟩) plan
  rw [State.setVoice_ch, State.setVoice_ch, queue] at origin
  obtain ⟨x, record, state, start', deadline', fill', plan', parts⟩ := starting.record
  refine ⟨_, x, rfl, record, state, start', deadline', fill', plan', ?_, starting.channel.1.trans preroll,
    starting.channel.2.trans origin, starting.owned, fun v ha hb => ?_, ?_, ?_, ?_⟩
  · exact parts.trans (makeRun_length plan (a, b))
  · exact (starting.others v ha hb).trans ((voice_of_voices voices v).trans (unclaimed v ha hb))
  · exact starting.asrun.trans (asrun.trans told.asrun)
  · exact starting.memory.trans (memory.trans same.memory)
  · exact starting.clock.trans (clock.trans same.clock)

end Sys2Proof.Machine
end

section
/-! PROOFS. The plan of a break: what its steps keep, and where a hard plan returns (R119 to R128). -/

namespace Sys2Proof.Machine

open Claim

/-! ### What the steps of the planner keep -/

/-- What the durations, the starts and the squeeze leave of an item. -/
def PlanItem.identity (p : PlanItem) : Nat × ItemClass × Disposition := (p.number, p.cls, p.disp)

theorem planDurations_identity (l : List PlanItem) :
    (planDurations l).map PlanItem.identity = l.map PlanItem.identity := by
  rw [planDurations, List.map_map]
  refine List.map_congr_left fun p _ => ?_
  simp only [Function.comp, PlanItem.withDuration]
  split <;> rfl

theorem planStarts_identity (prev : Option (Nat × Nat × Nat)) (l : List PlanItem) :
    (planStarts prev l).map PlanItem.identity = l.map PlanItem.identity := by
  induction l generalizing prev with
  | nil => rfl
  | cons p l ih =>
    unfold planStarts
    split
    · split <;> exact congrArg (List.cons p.identity) (ih _)
    · exact congrArg (List.cons p.identity) (ih _)

theorem planSqueeze_identity (w : Nat) (l : List PlanItem) :
    (planSqueeze w l).2.map PlanItem.identity = l.map PlanItem.identity := by
  have squeezed (f : Nat) : (l.map (PlanItem.squeezed f)).map PlanItem.identity =
      l.map PlanItem.identity := by
    rw [List.map_map]
    refine List.map_congr_left fun p _ => ?_
    simp only [Function.comp, PlanItem.squeezed]
    split <;> rfl
  unfold planSqueeze
  split
  · dsimp only
    split
    · rfl
    · dsimp only
      rw [planStarts_identity, planDurations_identity, squeezed]
  · rfl

theorem planLayout_identity (l : List PlanItem) :
    (planLayout l).map PlanItem.identity = l.map PlanItem.identity := by
  rw [planLayout, planStarts_identity, planDurations_identity]

theorem numbers_of_identity {l l' : List PlanItem}
    (h : l'.map PlanItem.identity = l.map PlanItem.identity) :
    l'.map (fun i => i.number) = l.map fun i => i.number := by
  have first := congrArg (List.map Prod.fst) h
  rwa [List.map_map, List.map_map] at first

theorem dropTime_numbers (test : PlanItem → Bool) (l : List PlanItem) :
    (dropTime test l).map (fun i => i.number) = l.map fun i => i.number := by
  rw [dropTime, List.map_map]
  refine List.map_congr_left fun p _ => ?_
  simp only [Function.comp]
  split <;> rfl

theorem dropLast_numbers (l : List PlanItem) :
    (dropLast l).map (fun i => i.number) = l.map fun i => i.number := by
  unfold dropLast
  split
  · rfl
  · rw [List.map_map]
    refine List.map_congr_left fun p _ => ?_
    simp only [Function.comp]
    split <;> rfl

theorem planDrops_numbers (w fuel : Nat) (l : List PlanItem) :
    (planDrops w fuel l).map (fun i => i.number) = l.map fun i => i.number := by
  induction fuel generalizing l with
  | zero => rfl
  | succ fuel ih =>
    unfold planDrops
    split
    · rw [ih, numbers_of_identity (planStarts_identity none _), dropLast_numbers]
    · rfl

theorem makePlan_numbers (q : PlanInput) :
    (makePlan q).items.map (fun i => i.number) = q.items.map fun i => i.number := by
  unfold makePlan
  split
  · rw [planOpen]
    dsimp only
    rw [dropTime_numbers, numbers_of_identity (planLayout_identity q.items)]
  · rw [planHard]
    dsimp only
    rw [dropTime_numbers, numbers_of_identity (planSqueeze_identity _ _), planDrops_numbers,
      numbers_of_identity (planLayout_identity q.items)]

theorem makePlan_late (q : PlanInput) : (makePlan q).late = q.late := by
  unfold makePlan
  split <;> rfl

/-! ### What is dropped to make a break fit (R123) -/

/-- Only a DROP item is dropped with cause FIT. -/
def FitDrops (l : List PlanItem) : Prop := ∀ i ∈ l, i.disp = .dropped .fit → i.cls = .drop

theorem fitDrops_of_identity {l l' : List PlanItem}
    (h : l'.map PlanItem.identity = l.map PlanItem.identity) (hl : FitDrops l) : FitDrops l' := by
  intro i hi dropped
  have mem : i.identity ∈ l.map PlanItem.identity := h ▸ List.mem_map_of_mem hi
  obtain ⟨j, hj, same⟩ := List.mem_map.1 mem
  simp only [PlanItem.identity, Prod.mk.injEq] at same
  obtain ⟨-, cls, disp⟩ := same
  exact cls ▸ hl j hj (disp.trans dropped)

theorem dropTime_fitDrops (test : PlanItem → Bool) {l : List PlanItem} (hl : FitDrops l) :
    FitDrops (dropTime test l) := by
  intro i hi dropped
  obtain ⟨p, hp, rfl⟩ := List.mem_map.1 hi
  by_cases late : (p.isPlaced && test p) = true
  · rw [if_pos late] at dropped
    cases dropped
  · rw [if_neg late] at dropped ⊢
    exact hl p hp dropped

theorem dropLast_fitDrops {l : List PlanItem} (nodup : (l.map fun i => i.number).Nodup)
    (hl : FitDrops l) : FitDrops (dropLast l) := by
  unfold dropLast
  split
  · exact hl
  · next d last =>
    have mem := List.mem_filter.1 (List.mem_of_getLast? last)
    have drop : d.cls = .drop := by
      have both := mem.2
      rw [PlanItem.droppable, Bool.and_eq_true, beq_iff_eq] at both
      exact both.2
    intro i hi dropped
    obtain ⟨p, hp, rfl⟩ := List.mem_map.1 hi
    by_cases same : p.number = d.number
    · have own : p = d := List.inj_on_of_nodup_map nodup hp mem.1 same
      rw [if_pos same, own]
      exact drop
    · rw [if_neg same] at dropped ⊢
      exact hl p hp dropped

theorem planDrops_fitDrops (w fuel : Nat) {l : List PlanItem}
    (nodup : (l.map fun i => i.number).Nodup) (hl : FitDrops l) : FitDrops (planDrops w fuel l) := by
  induction fuel generalizing l with
  | zero => exact hl
  | succ fuel ih =>
    unfold planDrops
    split
    · have same := planStarts_identity none (Machine.dropLast l)
      refine ih ?_ (fitDrops_of_identity same (dropLast_fitDrops nodup hl))
      rw [numbers_of_identity same, dropLast_numbers]
      exact nodup
    · exact hl

/-! ### The squeeze and the return point (R124, R127, R128) -/

theorem le_ceilDiv {a b k : Nat} (hb : 0 < b) (h : k * b ≤ a) : k ≤ ceilDiv a b := by
  have room := le_mul_ceilDiv a hb
  by_contra below
  have less : b * ceilDiv a b < b * k := Nat.mul_lt_mul_of_pos_left (Nat.lt_of_not_le below) hb
  rw [Nat.mul_comm k b] at h
  omega

theorem squeezeFactor_range (excess sst : Nat) :
    65536 ≤ squeezeFactor excess sst ∧ squeezeFactor excess sst ≤ 68157 := by
  have unit : Config.unitFactor = 65536 := rfl
  have cap : Config.maxFactor = 68157 := rfl
  unfold squeezeFactor
  rw [unit, cap]
  split
  · decide
  · split
    · decide
    · next below =>
      have least : 65536 ≤ ceilDiv (65536 * sst) (sst - excess) :=
        le_ceilDiv (by omega) (Nat.mul_le_mul_left _ (Nat.sub_le ..))
      omega

theorem planSqueeze_factor (w : Nat) (l : List PlanItem) :
    65536 ≤ (planSqueeze w l).1 ∧ (planSqueeze w l).1 ≤ 68157 := by
  have unit : 65536 ≤ Config.unitFactor ∧ Config.unitFactor ≤ 68157 := by decide
  unfold planSqueeze
  split
  · dsimp only
    split
    · exact unit
    · exact squeezeFactor_range _ _
  · exact unit

theorem hardReturn_range (w jf p threshold : Nat) (fill : Bool) :
    min 0 ((w : Int) - jf) ≤ (hardReturn w jf p threshold fill).1
      ∧ (hardReturn w jf p threshold fill).1 ≤ (w : Int) - jf := by
  unfold hardReturn
  dsimp only
  split
  · dsimp only
    omega
  · split
    · dsimp only
      omega
    · dsimp only
      omega

theorem hardPlan_returnsInTime : hardPlanReturnsInTime := by
  intro q d deadline edge
  have hard : makePlan q = planHard q (d - q.start).toNat := by rw [makePlan, deadline]
  refine ⟨?_, makePlan_numbers q, ?_, ?_, fun nodup placed => ?_⟩
  · rw [hard, planHard]
    dsimp only
    have range := hardReturn_range (d - q.start).toNat (32 * q.joinFade) (planEnd (planSqueeze
      (d - q.start).toNat (planDrops (d - q.start).toNat (planLayout q.items).length
        (planLayout q.items))).2) q.threshold q.fill
    have same : edge = ((d - q.start).toNat : Int) - (32 * q.joinFade : Nat) := by
      simp only [edge, Nat.cast_mul, Nat.cast_ofNat]
    rw [← same] at range
    refine ⟨_, rfl, ?_⟩
    split
    · split
      · omega
      · exact range
    · exact range
  · rw [hard]
    exact (planSqueeze_factor _ _).1
  · rw [hard]
    exact (planSqueeze_factor _ _).2
  · rw [hard]
    have start : FitDrops q.items := fun i hi dropped => by
      rw [placed i hi] at dropped
      cases dropped
    have laid := fitDrops_of_identity (planLayout_identity q.items) start
    have fits := planDrops_fitDrops (d - q.start).toNat (planLayout q.items).length
      (by rw [numbers_of_identity (planLayout_identity q.items)]; exact nodup) laid
    exact dropTime_fitDrops _ (fitDrops_of_identity (planSqueeze_identity _ _) fits)

end Sys2Proof.Machine
end

section
/-! PROOFS. The two ends of a trigger that starts no break: an empty plan and a refused claim
(R129, R131). -/

namespace Sys2Proof.Machine

open Claim

variable {s u w : State} {c : Fin 4} {n : Nat} {r q : BreakRecord} {h : Nat → Nat}

/-! ### The records, one per item -/

/-- The plan's items taken by number are its items in order. -/
theorem filterMap_planned {α β : Type} (f : α → PlanItem → β) (l : List α) (k : Nat)
    {before items : List PlanItem} (earlier : ∀ i ∈ before, i.number < k)
    (numbers : items.map (fun i => i.number) = (l.zipIdx k).map fun p => p.2) :
    (l.zipIdx k).filterMap (fun p =>
        ((before ++ items).find? fun i => i.number == p.2).map (f p.1)) =
      List.zipWith f l items := by
  induction l generalizing k before items with
  | nil => rfl
  | cons a l ih =>
    cases items with
    | nil => cases numbers
    | cons i items =>
      rw [List.zipIdx_cons, List.map_cons, List.map_cons, List.cons.injEq] at numbers
      obtain ⟨own, numbers⟩ := numbers
      have found : (before ++ i :: items).find? (fun x => x.number == k) = some i := by
        rw [List.find?_append, List.find?_eq_none.2, Option.none_or, List.find?_cons_of_pos]
        · exact beq_iff_eq.2 own
        · intro x hx
          have less := earlier x hx
          simp only [beq_iff_eq]
          omega
      have rest := ih (k + 1) (before := before ++ [i]) (items := items) (fun x hx => by
        obtain hx | hx := List.mem_append.1 hx
        · exact Nat.lt_succ_of_lt (earlier x hx)
        · rw [List.mem_singleton.1 hx, own]
          exact Nat.lt_succ_self k) numbers
      rw [List.append_assoc, List.singleton_append] at rest
      rw [List.zipIdx_cons, List.filterMap_cons, found, Option.map_some, rest, List.zipWith_cons_cons]

/-! ### The record leaves -/

theorem triggered_clips (c : Fin 4) (s : State) (r : BreakRecord) (start : AC) (deadline : Option AC)
    (m : Nat) : (triggered c s r start deadline).clips.count m = r.clips.count m + fillHold c s r m := by
  rw [BreakRecord.clips, BreakRecord.clips, List.count_append, List.count_append, triggered]
  dsimp only
  rw [Nat.add_assoc]
  congr 1
  rw [fillHold]
  obtain none_ | ⟨n, own⟩ := Option.eq_none_or_eq_some r.fillClip
  · rw [none_]
    simp only [Option.toList_none, List.count_nil, Nat.zero_add, true_and]
    obtain unset | ⟨f, set⟩ := Option.eq_none_or_eq_some (fillTaken c s r)
    · rw [unset]
      simp
    · rw [set]
      simp [List.count_singleton]
  · have same : fillTaken c s r = some n := by
      rw [fillTaken, own]
    rw [own, same]
    simp

/-- A record taken into PREROLL leaves its channel as it was loaded, with the hold of the trigger. -/
theorem State.Told.leaves {rows : List AsRunRecord} (told : s.Told c r.number q h u)
    (clips : ∀ m, q.clips.count m = r.clips.count m + h m)
    (gone : Claim.leaves c q rows u w) : Claim.leaves c r rows s w := by
  obtain ⟨asrun, own, others, holds, memory, clock, tx, rx, lane, voices, events, cmd⟩ := gone
  obtain ⟨l, queue, filtered⟩ := told.queue
  have same := State.sameAround_of_eq told.around
  refine ⟨?_, ?_, fun d hd => (others d hd).trans (same.ch d hd), fun m => ?_, memory.trans same.memory,
    clock.trans same.clock, tx.trans same.tx, rx.trans same.rx, lane.trans same.lane,
    voices.trans told.voices, events.trans told.events, cmd.trans same.cmd⟩
  · rw [asrun, told.asrun]
  · rw [own, queue, number_of_record told.record, filtered]
  · rw [holds, told.entry, clips, Nat.add_sub_add_right]

/-! ### The alert of a refused claim (R131, R192) -/

theorem asrunWrite_quiet {x : AsRunRecord}
    (calm : s.asrun.records.length + 1 < 192 ∨ 192 ≤ s.asrun.records.length) :
    (asrunWrite x s).alert = s.alert := by
  have high : Config.asrunHigh = 192 := rfl
  unfold asrunWrite
  split
  · dsimp only
    split
    · rfl
    · next before =>
      rw [if_neg]
      · rfl
      · intro after
        rw [State.asrunHigh, decide_eq_true_eq, high] at before after
        rw [State.setAsrun] at after
        simp only [List.length_append, List.length_singleton] at after
        omega
  · rfl

theorem asrunWriteAll_quiet {l : List AsRunRecord} (room : s.asrun.records.length + l.length ≤ 256)
    (calm : s.asrun.records.length + l.length < 192 ∨ 192 ≤ s.asrun.records.length) :
    (asrunWriteAll l s).alert = s.alert := by
  induction l generalizing s with
  | nil => rfl
  | cons x l ih =>
    rw [List.length_cons] at room calm
    have first : (asrunWrite x s).alert = s.alert := asrunWrite_quiet (by omega)
    have length : (asrunWrite x s).asrun.records.length = s.asrun.records.length + 1 := by
      rw [asrunWrite_room (by omega), List.length_append, List.length_singleton]
    rw [asrunWriteAll, List.foldl_cons]
    exact (ih (by omega) (by omega)).trans first

/-- An ALERT is made of the same things in two states whose alert units and levels agree. -/
theorem raiseAlert_alike {src : AlertSource} (alert : u.alert = s.alert) (lane : u.lane = s.lane)
    (clock : u.clock = s.clock) (rx : u.rx = s.rx) (gpi : u.gpi = s.gpi)
    (high : u.asrunHigh = s.asrunHigh)
    (levels : ∀ d, (u.ch d).monitor = (s.ch d).monitor ∧ (u.ch d).state = (s.ch d).state) :
    (raiseAlert src u).alert = (raiseAlert src s).alert := by
  have snapshot : u.snapshot = s.snapshot := by
    simp only [State.snapshot, State.locked, rx, high, State.gpiLine, gpi, levels]
  rw [raiseAlert_eq_after, raiseAlert_eq_after, snapshot, alert, lane, clock]
  rfl

/-! ### The two ends (R129, R131) -/

/-- The record of an item that a trigger ended before its start. -/
def endedRow (c : Fin 4) (s : State) (r : BreakRecord) (start : AC) (late : Bool)
    (ending : PlanItem → AirOutcome × Cause) (q : Item) (i : PlanItem) : AsRunRecord where
  channel := c
  kind := .item
  breakNo := some r.number
  itemNo := some i.number
  clip := q.clip
  spotKey := (s.entry q.clip).spotKey
  outcome := (ending i).1
  cause := (ending i).2
  late := late
  planned := some (start + BitVec.ofInt 32 i.start)
  aired := none
  squeeze := i.squeeze

theorem planItems_numbers (s : State) (r : BreakRecord) :
    (planItems s r).map (fun i => i.number) = (r.items.zipIdx 1).map fun p => p.2 := by
  rw [planItems, List.map_map]
  rfl

theorem plannedRows_ended {start : AC} {deadline : Option AC} {late : Bool}
    (told : s.Told c n (triggered c s r start deadline) h u) (ending : PlanItem → AirOutcome × Cause) :
    plannedRows u c (triggered c s r start deadline) (makePlan (planInput c s r start deadline late))
        (fun i => ((ending i).1, (ending i).2, none)) =
      List.zipWith (endedRow c s r start late ending) r.items
        (makePlan (planInput c s r start deadline late)).items := by
  have numbers := (makePlan_numbers (planInput c s r start deadline late)).trans
    (planItems_numbers s r)
  have late' : (makePlan (planInput c s r start deadline late)).late = late := makePlan_late _
  have rows := filterMap_planned (endedRow c s r start late ending) r.items 1 (before := [])
    (fun i hi => absurd hi List.not_mem_nil) numbers
  rw [← rows, plannedRows, late']
  dsimp only
  refine List.filterMap_congr fun p _ => ?_
  rw [Plan.item?, List.nil_append]
  cases found : List.find? (fun i => i.number == p.2)
      (makePlan (planInput c s r start deadline late)).items with
  | none => rfl
  | some i =>
    have own : i.number = p.2 := by simpa using List.find?_some found
    have key : u.spotKey p.1.clip = (s.entry p.1.clip).spotKey := by
      rw [State.spotKey, told.entry]
    simp only [Option.map_some, itemRow, endedRow, key, own, triggered, Option.getD_some, planAC]

theorem zipWith_congr_right {α β γ : Type} {f g : α → β → γ} (l : List α) {m : List β}
    (h : ∀ b ∈ m, ∀ a, f a b = g a b) : List.zipWith f l m = List.zipWith g l m := by
  induction l generalizing m with
  | nil => rfl
  | cons a l ih =>
    cases m with
    | nil => rfl
    | cons b m =>
      rw [List.zipWith_cons_cons, List.zipWith_cons_cons, h b List.mem_cons_self,
        ih fun x hx => h x (List.mem_cons_of_mem b hx)]

theorem removeRecord_alert (c : Fin 4) (n : Nat) (s : State) :
    (removeRecord c n s).alert = s.alert := by
  unfold removeRecord
  cases s.record c n with
  | none => rfl
  | some r =>
    obtain ⟨d, hd⟩ := releaseHolds_store r.clips s
    dsimp only
    rw [hd]
    rfl

/-- The record taken leaves with these records, from a state in which they are handed over. -/
theorem told_ends {start : AC} {deadline : Option AC} {rows : List AsRunRecord} (hf : s.formed)
    (told : s.Told c r.number (triggered c s r start deadline) (fillHold c s r) u)
    (asrun : w.asrun = ⟨u.asrun.records ++ rows, u.asrun.lost⟩) (chans : w.chans = u.chans)
    (around : w.around c = u.around c) (store : w.store = u.store) (voices : w.voices = u.voices)
    (events : w.events = u.events) : Claim.leaves c r rows s (removeRecord c r.number w) :=
  told.leaves (triggered_clips c s r start deadline) (removeRecord_leaves (r := triggered c s r start deadline)
    (told.formed hf) told.record asrun chans around store voices events)

/-- The cause of a dropped item; another one where it is placed. -/
def PlanItem.dropCause (other : Cause) (i : PlanItem) : Cause :=
  match i.disp with
  | .dropped cause => cause
  | .placed => other

theorem emptyPlan_leaves {start : AC} {deadline : Option AC} {late : Bool} (hf : s.formed)
    (told : s.Told c r.number (triggered c s r start deadline) (fillHold c s r) u)
    (dropped : ∀ i ∈ (makePlan (planInput c s r start deadline late)).items,
      ∃ cause, i.disp = .dropped cause)
    (room : s.asrun.records.length + r.items.length ≤ 256) :
    Claim.leaves c r (List.zipWith (endedRow c s r start late fun i => (.dropped, i.dropCause .none))
        r.items (makePlan (planInput c s r start deadline late)).items) s
      (endEmptyPlan c (triggered c s r start deadline)
        (makePlan (planInput c s r start deadline late)) u) := by
  have rows := plannedRows_ended (late := late) told fun i => (.dropped, i.dropCause .time)
  have same := zipWith_congr_right (f := endedRow c s r start late fun i => (.dropped, i.dropCause .time))
    (g := endedRow c s r start late fun i => (.dropped, i.dropCause .none)) r.items fun i hi q => by
      obtain ⟨cause, disp⟩ := dropped i hi
      simp only [endedRow, PlanItem.dropCause, disp]
  have whole : endEmptyPlan c (triggered c s r start deadline)
      (makePlan (planInput c s r start deadline late)) u = removeRecord c r.number (asrunWriteAll
        (plannedRows u c (triggered c s r start deadline)
          (makePlan (planInput c s r start deadline late)) fun i => (.dropped, i.dropCause .time, none))
        u) := rfl
  rw [whole, rows, same]
  have fits (l : List AsRunRecord) (hl : l.length ≤ r.items.length) :
      u.asrun.records.length + l.length ≤ 256 := by
    rw [told.asrun]
    omega
  exact told_ends hf told (asrunWriteAll_room (fits _ (by rw [List.length_zipWith]; exact Nat.min_le_left ..)))
    (asrunWriteAll_chans ..) (asrunWriteAll_around _) (asrunWriteAll_store ..) (asrunWriteAll_voices ..)
    (asrunWriteAll_events ..)

theorem refusedClaim_leaves {start : AC} {deadline : Option AC} {late : Bool} (hf : s.formed)
    (told : s.Told c r.number (triggered c s r start deadline) (fillHold c s r) u)
    (room : s.asrun.records.length + r.items.length ≤ 256) :
    Claim.leaves c r (List.zipWith (endedRow c s r start late fun _ => (.notAired, .noVoice)) r.items
          (makePlan (planInput c s r start deadline late)).items) s
        (endRefusedClaim c (triggered c s r start deadline)
          (makePlan (planInput c s r start deadline late)) u)
      ∧ (s.asrun.records.length + r.items.length < 192 ∨ 192 ≤ s.asrun.records.length →
        (endRefusedClaim c (triggered c s r start deadline)
          (makePlan (planInput c s r start deadline late)) u).alert =
            (raiseAlert .breakFailed s).alert) := by
  have rows := plannedRows_ended (late := late) told fun _ => (.notAired, .noVoice)
  have whole : endRefusedClaim c (triggered c s r start deadline)
      (makePlan (planInput c s r start deadline late)) u = removeRecord c r.number (raiseAlert .breakFailed
        (asrunWriteAll (plannedRows u c (triggered c s r start deadline)
          (makePlan (planInput c s r start deadline late)) fun _ => (.notAired, .noVoice, none)) u)) := rfl
  rw [whole, rows]
  have short : (List.zipWith (endedRow c s r start late fun _ => (.notAired, .noVoice)) r.items
      (makePlan (planInput c s r start deadline late)).items).length = r.items.length := by
    have numbers := congrArg List.length ((makePlan_numbers (planInput c s r start deadline late)).trans
      (planItems_numbers s r))
    rw [List.length_map, List.length_map, List.length_zipIdx] at numbers
    rw [List.length_zipWith, numbers, Nat.min_self]
  generalize List.zipWith _ r.items _ = l at *
  have fits : u.asrun.records.length + l.length ≤ 256 := by
    rw [told.asrun]
    omega
  have written := asrunWriteAll_room fits
  refine ⟨told_ends hf told ((raiseAlert_asrun ..).trans written)
    ((raiseAlert_chans ..).trans (asrunWriteAll_chans ..))
    ((raiseAlert_around .breakFailed).trans (asrunWriteAll_around l))
    ((raiseAlert_store ..).trans (asrunWriteAll_store ..))
    ((raiseAlert_voices ..).trans (asrunWriteAll_voices ..))
    ((raiseAlert_events ..).trans (asrunWriteAll_events ..)), fun calm => ?_⟩
  have quiet : (asrunWriteAll l u).alert = s.alert :=
    (asrunWriteAll_quiet fits (by rw [told.asrun, short]; exact calm)).trans told.alert
  have same := State.sameAround_of_eq ((asrunWriteAll_around (c := c) (s := u) l).trans told.around)
  obtain ⟨q, queue, -⟩ := told.queue
  have own (d : Fin 4) : ((asrunWriteAll l u).ch d).monitor = (s.ch d).monitor
      ∧ ((asrunWriteAll l u).ch d).state = (s.ch d).state := by
    rw [asrunWriteAll_ch]
    by_cases hd : d = c
    · rw [hd, queue]
      exact ⟨rfl, rfl⟩
    · rw [(State.sameAround_of_eq told.around).ch d hd]
      exact ⟨rfl, rfl⟩
  have high : (asrunWriteAll l u).asrunHigh = s.asrunHigh := by
    have level : Config.asrunHigh = 192 := rfl
    rw [State.asrunHigh, State.asrunHigh, written, told.asrun, level, decide_eq_decide]
    dsimp only
    rw [List.length_append]
    omega
  rw [removeRecord_alert]
  exact raiseAlert_alike quiet same.lane same.clock same.rx same.gpi high own

theorem trigger_mayEndAtOnce : triggerMayEndAtOnce := by
  intro c s r start deadline late hf hr _ _ room fill plan rows
  have told := triggered_told hr start deadline
  obtain ⟨empties, refuses, -⟩ := acceptTrigger_eq hr start deadline late
  refine ⟨fun dropped => ?_, fun placed few => ?_⟩
  · have empty : plan.isEmpty = true := by
      rw [Plan.isEmpty, Bool.not_eq_true', List.any_eq_false]
      intro i hi
      obtain ⟨cause, disp⟩ := dropped i hi
      rw [PlanItem.isPlaced, disp]
      exact Bool.false_ne_true
    exact ⟨_, empties empty, emptyPlan_leaves hf told dropped room⟩
  · have some_ : plan.isEmpty = false := by
      obtain ⟨i, hi, disp⟩ := placed
      rw [Plan.isEmpty, Bool.not_eq_false', List.any_eq_true]
      exact ⟨i, hi, beq_iff_eq.2 disp⟩
    obtain ⟨gone, alert⟩ := refusedClaim_leaves (late := late) hf told room
    exact ⟨_, refuses some_ few, gone, alert⟩

/-- Settles O31: the hard plan, and the two ends without a break. -/
theorem hardPlanReturnsInTime : Obligations.HardPlanReturnsInTime :=
  ⟨hardPlan_returnsInTime, trigger_mayEndAtOnce⟩

end Sys2Proof.Machine
end

section
/-! PROOFS. The begin of a join at X (R70, R142). -/

namespace Sys2Proof.Machine

open Claim

variable {s t u : State} {c : Fin 4} {n : Nat} {l : List (Fin 16)}

/-! ### The join's requests to a voice (R142) -/

/-- A voice after the join's requests with a fade over j blocks. -/
def Voice.stopped (j : Nat) (x : Voice) : Voice :=
  if x.state = .playing then { x with ramp := some (zeroRamp x.code j), staged := none }
  else if x.state = .primed then { x with state := .reserved }
  else x

theorem Voice.stopped_playing {x : Voice} (h : x.state = .playing) (j : Nat) :
    x.stopped j = { x with ramp := some (zeroRamp x.code j), staged := none } := if_pos h

theorem Voice.stopped_primed {x : Voice} (h : x.state = .primed) (j : Nat) :
    x.stopped j = { x with state := .reserved } := by
  rw [Voice.stopped, if_neg (by rw [h]; decide), if_pos h]

theorem Voice.stopped_other {x : Voice} (h : x.state ≠ .playing) (h' : x.state ≠ .primed) (j : Nat) :
    x.stopped j = x := by
  rw [Voice.stopped, if_neg h, if_neg h']

theorem Voice.stopped_stopped (j : Nat) (x : Voice) : (x.stopped j).stopped j = x.stopped j := by
  by_cases playing : x.state = .playing
  · rw [Voice.stopped_playing playing]
    refine Voice.stopped_playing ?_ j
    exact playing
  · by_cases primed : x.state = .primed
    · rw [Voice.stopped_primed primed]
      exact Voice.stopped_other VoiceState.noConfusion VoiceState.noConfusion j
    · rw [Voice.stopped_other playing primed, Voice.stopped_other playing primed]

theorem stopForJoin_cases (v : Fin 16) (fades : (s.ch c).config.joinFade ≠ 0) :
    (stopForJoin c n v s = s ∧ (s.voice v).stopped (s.ch c).config.joinFade = s.voice v)
      ∨ ∃ f, stopForJoin c n v s = modParts c n f
        (s.setVoice v ((s.voice v).stopped (s.ch c).config.joinFade)) := by
  by_cases playing : (s.voice v).state = .playing
  · have faded : fadeToZero v (s.ch c).config.joinFade s = (true, s.setVoice v { s.voice v with
        ramp := some (zeroRamp (s.voice v).code (s.ch c).config.joinFade), staged := none }) := by
      unfold fadeToZero
      dsimp only
      rw [if_neg (not_not.2 playing), if_neg fades]
    refine .inr ⟨fun p => if p.liveOn v then { p with fade := .join } else p, ?_⟩
    rw [stopForJoin, faded, Voice.stopped_playing playing]
    rfl
  · have ignored : fadeToZero v (s.ch c).config.joinFade s = (false, s) := if_pos playing
    by_cases primed : (s.voice v).state = .primed
    · have cancelled : (cancelVoice v s).2 = s.setVoice v { s.voice v with state := .reserved } := by
        simp only [cancelVoice, primed]
      refine .inr ⟨fun p => if p.voice = v ∧ p.state = .primed then { p with state := .notStarted } else p,
        ?_⟩
      rw [stopForJoin, ignored, Voice.stopped_primed primed]
      dsimp only
      rw [if_neg Bool.false_ne_true, if_pos primed, cancelled]
    · refine .inl ⟨?_, Voice.stopped_other playing primed _⟩
      rw [stopForJoin, ignored]
      dsimp only
      rw [if_neg Bool.false_ne_true, if_neg primed]

/-- What the join's requests to the voices of a list leave. -/
structure State.Stopped (s : State) (c : Fin 4) (n : Nat) (l : List (Fin 16)) (t : State) : Prop where
  channel : ∃ q, t.ch c = { s.ch c with queue := q }
  record : ∀ x, s.record c n = some x → ∃ y, t.record c n = some y ∧ y.state = x.state
  voice : ∀ w, t.voice w =
    if w ∈ l then (s.voice w).stopped (s.ch c).config.joinFade else s.voice w
  events : t.events = s.events
  store : t.store = s.store
  asrun : t.asrun = s.asrun
  around : t.around c = s.around c

theorem State.Stopped.refl (s : State) (c : Fin 4) (n : Nat) : s.Stopped c n [] s :=
  ⟨⟨_, rfl⟩, fun x hx => ⟨x, hx, rfl⟩, fun _ => (if_neg List.not_mem_nil).symm, rfl, rfl, rfl, rfl⟩

theorem State.Stopped.modParts (h : s.Stopped c n l t) (f : Part → Part) :
    s.Stopped c n l (modParts c n f t) := by
  obtain ⟨q, same⟩ := h.channel
  refine ⟨⟨q.map (changeRecord n (mapParts f)), ?_⟩, fun x hx => ?_, h.voice, h.events, h.store, h.asrun,
    (modParts_around n f).trans h.around⟩
  · rw [modParts_eq, modRecord_ch, if_pos rfl, same]
  · obtain ⟨y, hy, state⟩ := h.record x hx
    refine ⟨mapParts f y, ?_, state⟩
    rw [modParts_eq, modRecord_record (f := mapParts f) (fun _ => rfl), hy, Option.map_some,
      changeRecord, if_pos (number_of_record hy)]

theorem State.Stopped.stopForJoin (h : s.Stopped c n l t) (fades : (s.ch c).config.joinFade ≠ 0)
    (v : Fin 16) : s.Stopped c n (l ++ [v]) (stopForJoin c n v t) := by
  obtain ⟨q, same⟩ := h.channel
  have fade : (t.ch c).config.joinFade = (s.ch c).config.joinFade := by rw [same]
  have stops (w : Fin 16) (x : Voice) (hx : x = (t.voice v).stopped (s.ch c).config.joinFade) :
      (if w = v then x else t.voice w) =
        if w ∈ l ++ [v] then (s.voice w).stopped (s.ch c).config.joinFade else s.voice w := by
    by_cases own : w = v
    · rw [if_pos own, if_pos (by simp [own]), hx, h.voice v, own]
      split
      · exact Voice.stopped_stopped ..
      · rfl
    · rw [if_neg own, h.voice w]
      simp only [List.mem_append, List.mem_singleton, own, or_false]
  obtain ⟨ignored, kept⟩ | ⟨f, stopped⟩ := stopForJoin_cases (s := t) (c := c) (n := n) v
    (by rw [fade]; exact fades)
  · rw [ignored]
    refine ⟨h.channel, h.record, fun w => ?_, h.events, h.store, h.asrun, h.around⟩
    rw [fade] at kept
    rw [← stops w _ rfl, kept]
    split
    · next own => rw [own]
    · rfl
  · rw [stopped]
    have base : s.Stopped c n (l ++ [v]) (t.setVoice v ((t.voice v).stopped (t.ch c).config.joinFade)) := by
      refine ⟨h.channel, h.record, fun w => ?_, h.events, h.store, h.asrun, h.around⟩
      rw [State.voice_setVoice, fade]
      exact stops w _ rfl
    exact base.modParts f

/-- The join's requests where no frame is in formation. -/
theorem joinVoices_stopped (closed : s.forming.opened = false) (fades : (s.ch c).config.joinFade ≠ 0)
    (l : List (Fin 16)) : s.Stopped c n l (l.foldl (fun t v => joinVoice c n v t) s) := by
  induction l using List.reverseRecOn with
  | nil => exact State.Stopped.refl s c n
  | append_singleton l v ih =>
    rw [List.foldl_append]
    have forming := (State.sameAround_of_eq ih.around).forming
    have next := ih.stopForJoin fades v
    generalize l.foldl (fun t v => joinVoice c n v t) s = t at *
    have behind : ¬ t.startAhead v = true := by
      rw [State.startAhead, forming, closed, Bool.false_and, Bool.false_and]
      exact Bool.false_ne_true
    have asked : joinVoice c n v t = stopForJoin c n v t := if_neg behind
    rw [List.foldl_cons, List.foldl_nil, asked]
    exact next

/-! ### The begin of the join (R142) -/

/-- While the gain moves, break clear is a mark and no more. -/
theorem checkBreakClear_moving (moving : (s.ch c).gain ≠ 3840) :
    ∃ b, checkBreakClear c s = s.setCh c { s.ch c with breakClear := b } := by
  have own : s = s.setCh c { s.ch c with breakClear := (s.ch c).breakClear } := (State.setCh_own s c).symm
  have notDone : ((s.setCh c { s.ch c with breakClear := true }).ch c).joinDone = false := by
    have unity : (s.ch c).gain ≠ Config.unityCode := moving
    rw [State.ch_setCh_same]
    simp [Channel.joinDone, unity]
  unfold checkBreakClear
  split
  · exact ⟨_, own⟩
  · split
    · unfold requestBreakClear
      dsimp only
      split
      · exact ⟨true, by rw [finishJoin, notDone, if_neg Bool.false_ne_true]⟩
      · exact ⟨_, own⟩
    · exact ⟨_, own⟩

/-- The record JOINING and the channel told, before the voices are. -/
structure State.Requested (s : State) (c : Fin 4) (n : Nat) (t : State) : Prop where
  channel : ∃ q, t.ch c = { s.ch c with
    state := .joining, breakClear := false
    gain := if (s.ch c).config.joinFade = 0 then 3840 else (s.ch c).gain
    gainTarget := 3840
    gainRate := fadeRate (distance 3840 (s.ch c).gain) (s.ch c).config.joinFade
    queue := q }
  record : ∃ x, t.record c n = some x ∧ x.state = .joining
  voices : t.voices = s.voices
  events : t.events = s.events
  store : t.store = s.store
  asrun : t.asrun = s.asrun
  around : t.around c = s.around c

theorem joinRequested (onBreak : (s.ch c).state = .onBreak) (queued : ∃ r ∈ (s.ch c).queue, r.number = n) :
    s.Requested c n (requestJoin c (modRecord c n (fun q => { q with state := .joining }) s)) := by
  have channel := modRecord_ch c c n (fun q : BreakRecord => { q with state := .joining }) s
  have record := modRecord_record (c := c) (n := n) (f := fun q : BreakRecord => { q with state := .joining })
    (fun _ => rfl) n s
  obtain ⟨x, hx⟩ : ∃ x, s.record c n = some x := by
    obtain ⟨r, mem, number⟩ := queued
    exact Option.isSome_iff_exists.1 (List.find?_isSome.2 ⟨r, mem, beq_iff_eq.2 number⟩)
  rw [hx, Option.map_some, changeRecord, if_pos (number_of_record hx)] at record
  rw [if_pos rfl] at channel
  have beside : (modRecord c n (fun q : BreakRecord => { q with state := .joining }) s).voices = s.voices
      ∧ (modRecord c n (fun q : BreakRecord => { q with state := .joining }) s).events = s.events
      ∧ (modRecord c n (fun q : BreakRecord => { q with state := .joining }) s).store = s.store
      ∧ (modRecord c n (fun q : BreakRecord => { q with state := .joining }) s).asrun = s.asrun :=
    ⟨rfl, rfl, rfl, rfl⟩
  have around := modRecord_around (c := c) (s := s) n fun q : BreakRecord => { q with state := .joining }
  generalize modRecord c n (fun q : BreakRecord => { q with state := .joining }) s = w at *
  obtain ⟨voices, events, store, asrun⟩ := beside
  have joins := requestJoin_ch (s := w) (c := c) (by rw [channel]; exact onBreak)
  rw [channel] at joins
  refine ⟨⟨_, joins⟩, ⟨{ x with state := .joining }, ?_, rfl⟩, (requestJoin_voices c w).trans voices,
    (requestJoin_events c w).trans events, (requestJoin_store c w).trans store,
    (requestJoin_asrun c w).trans asrun, requestJoin_around.trans around⟩
  rw [State.record, joins, ← record, State.record, channel]

theorem join_beginsAtTheReturn : joinBeginsAtTheReturn := by
  intro c s r p closed settled flight onAir plan ret formed onBreak moving fades
  have due : s.joinDue c = true := by simp [State.joinDue, flight, onAir, plan, ret, formed]
  have row : exec (.join c.val) s = .next (joinBreak c s) := by
    simp only [exec, execJoin, channelOf_val, closed, due, and_self, if_true, settle_of_settled settled]
  have whole : joinBreak c s = checkBreakClear c (modParts c r.number Part.unstarted (r.voices.foldl
      (fun t v => joinVoice c r.number v t)
      (requestJoin c (modRecord c r.number (fun q => { q with state := .joining }) s)))) := by
    simp only [joinBreak, flight, onAir, ne_eq, not_true_eq_false, if_false]
  rw [row, whole]
  have begun := joinRequested (n := r.number) onBreak ⟨r, mem_of_flight flight, rfl⟩
  generalize requestJoin c (modRecord c r.number (fun q => { q with state := .joining }) s) = w at *
  obtain ⟨q, channel⟩ := begun.channel
  obtain ⟨x, record, joining⟩ := begun.record
  have fade : (w.ch c).config.joinFade = (s.ch c).config.joinFade := by rw [channel]
  have closed' : w.forming.opened = false := by
    rw [(State.sameAround_of_eq begun.around).forming]
    exact closed
  have stopped := (joinVoices_stopped (n := r.number) closed' (by rw [fade]; exact fades) r.voices).modParts
    Part.unstarted
  generalize modParts c r.number Part.unstarted (r.voices.foldl (fun t v => joinVoice c r.number v t) w) = u
    at *
  obtain ⟨q', channel'⟩ := stopped.channel
  obtain ⟨y, record', joining'⟩ := stopped.record x record
  have own : u.ch c = { s.ch c with
      state := .joining, breakClear := false, gainTarget := 3840
      gainRate := fadeRate (distance 3840 (s.ch c).gain) (s.ch c).config.joinFade, queue := q' } := by
    rw [channel', channel, if_neg fades]
  have voice (v : Fin 16) : u.voice v =
      if v ∈ r.voices then (s.voice v).stopped (s.ch c).config.joinFade else s.voice v := by
    rw [stopped.voice, fade, voice_of_voices begun.voices]
  have around := stopped.around.trans begun.around
  obtain ⟨b, marked⟩ := checkBreakClear_moving (s := u) (c := c) (by rw [own]; exact moving)
  have around' := State.sameAround_of_eq ((State.setCh_around c u { u.ch c with breakClear := b }).trans around)
  have record'' : (u.setCh c { u.ch c with breakClear := b }).record c r.number = some y := by
    rw [State.record, State.ch_setCh_same]
    exact record'
  have mine : (u.setCh c { u.ch c with breakClear := b }).ch c = { u.ch c with breakClear := b } :=
    State.ch_setCh_same ..
  have kept (v : Fin 16) : (u.setCh c { u.ch c with breakClear := b }).voice v = u.voice v := rfl
  have rest : (u.setCh c { u.ch c with breakClear := b }).events = s.events
      ∧ (u.setCh c { u.ch c with breakClear := b }).store = s.store
      ∧ (u.setCh c { u.ch c with breakClear := b }).asrun = s.asrun :=
    ⟨stopped.events.trans begun.events, stopped.store.trans begun.store, stopped.asrun.trans begun.asrun⟩
  rw [marked]
  generalize u.setCh c { u.ch c with breakClear := b } = t at *
  obtain ⟨events, store, asrun⟩ := rest
  rw [own] at mine
  refine ⟨t, rfl, ?_, ?_, ?_, ?_, ?_, fun v hv playing => ?_, fun v hv primed => ?_, fun v hv => ?_,
    around'.ch, events, around'.memory, store, around'.clock, around'.tx, asrun⟩
  · rw [mine]
  · rw [mine]
  · rw [mine]
  · rw [mine]
  · rw [record'', Option.map_some, joining', joining]
  · rw [kept, voice, if_pos hv, Voice.stopped_playing playing]
    rfl
  · rw [kept, voice, if_pos hv, Voice.stopped_primed primed]
  · rw [kept, voice, if_neg hv]

/-! ### How the items of a joined break are recorded (R144) -/

theorem joinedItems_areRecorded : joinedItemsAreRecorded := by
  intro u i
  refine ⟨fun cause dropped => ?_, fun p placed found => ⟨fun x y finished start stop => ?_,
    fun unfinished => ?_⟩⟩
  · rw [joinEnding, dropped]
  · have part : partFor u.parts (PartKind.isItem i.number) = some p := found
    simp only [joinEnding, placed, part, finished, start, stop, if_true, airedBetween]
  · have part : partFor u.parts (PartKind.isItem i.number) = some p := found
    simp only [joinEnding, placed, part, unfinished, if_false]

end Sys2Proof.Machine
end

section
/-! PROOFS. The end of a join with the break's last voice, and its records (R71, R143, R144). -/

namespace Sys2Proof.Machine

open Claim

variable {s w : State} {c : Fin 4} {r q : BreakRecord} {u : Run}

/-! ### The records of a completed break (R144) -/

theorem joinEnding_itemCame (u : Run) (i : PlanItem) : joinEnding u i = itemCame u i := by
  unfold joinEnding itemCame partFor
  cases i.disp with
  | dropped cause => rfl
  | placed =>
    cases u.parts.find? fun p => PartKind.isItem i.number p.kind with
    | none => rfl
    | some p =>
      by_cases finished : p.state = .finished
      · simp only [finished, if_true, ne_eq, not_true_eq_false, if_false]
        rfl
      · simp only [finished, if_false, ne_eq, not_false_eq_true, if_true]

theorem fillEnding_toList (u : Run) (f : Ending → AsRunRecord) :
    ((fillEnding u).map f).toList =
      ((u.parts.find? fun x => PartKind.isFill x.kind).toList.filter fun p =>
        p.state == .finished).map fun p =>
          f (if u.cause = .time then (.full, .none, airing p) else (.cut, u.cause, airing p)) := by
  unfold fillEnding partFor
  cases u.parts.find? fun p => PartKind.isFill p.kind with
  | none => rfl
  | some p =>
    by_cases finished : p.state = .finished
    · by_cases time : u.cause = .time <;> simp [finished, time, airing] <;> rfl
    · simp [finished]

/-- The rows handed over, by the clips as they were. -/
theorem joinRows_records {plan : Plan} (entry : ∀ n, w.entry n = s.entry n) (hplan : r.plan = some plan)
    (run : r.run = some u) : joinRows w c r = joinRecords s c r plan u := by
  have keys (n : Nat) : w.spotKey n = (s.entry n).spotKey := by rw [State.spotKey, entry]
  have came : joinEnding u = itemCame u := funext (joinEnding_itemCame u)
  have items : itemRecords w c r plan (itemCame u) = itemRecords s c r plan (itemCame u) := by
    simp only [itemRecords, entry]
  have fills : fillRow w c r plan = fillRecord s c r plan := funext fun e => by
    rw [fillRow, keys, fillRecord]
  rw [joinRows, hplan, run]
  dsimp only
  rw [plannedRows_itemRecords, came, items, fillEnding_toList, fills, joinRecords]

/-! ### The completion (R143, R144) -/

theorem quiet_of_parts (h : ∀ x ∈ r.parts, x.state ≠ .primed ∧ x.state ≠ .sounding) :
    r.quiet = true := by
  rw [BreakRecord.quiet, Bool.not_eq_true', List.any_eq_false]
  intro x hx
  obtain ⟨primed, sounding⟩ := h x hx
  simp [primed, sounding]

/-- Break clear with no part live: the mark is set, and with the gain at unity the break completes. -/
theorem checkBreakClear_quiet (flying : s.Flying c r) (joining : r.state = .joining)
    (quiet : r.quiet = true) (state : (s.ch c).state = .joining) : checkBreakClear c s =
      if (s.ch c).gain = 3840 then
        completeBreak c (setChannelState c .network (s.setCh c { s.ch c with breakClear := true }))
      else s.setCh c { s.ch c with breakClear := true } := by
  have asked : checkBreakClear c s = finishJoin c (s.setCh c { s.ch c with breakClear := true }) := by
    rw [checkBreakClear, flying.flight]
    dsimp only
    rw [if_pos ⟨joining, quiet⟩]
    exact if_pos state
  have done : ((s.setCh c { s.ch c with breakClear := true }).ch c).joinDone = true
      ↔ (s.ch c).gain = 3840 := by
    have unity : Config.unityCode = 3840 := rfl
    rw [State.ch_setCh_same]
    simp [Channel.joinDone, state, unity]
  rw [asked, finishJoin]
  by_cases unity : (s.ch c).gain = 3840
  · rw [if_pos (done.2 unity), if_pos unity]
  · rw [if_neg fun is => unity (done.1 is), if_neg unity]

/-- What the completion of a break leaves. -/
theorem completeBreak_leaves {plan : Plan} {a b : Fin 16} (hf : s.formed) (flying : s.Flying c r)
    (hplan : r.plan = some plan) (hv : plan.voices = some (a, b)) (apart : a ≠ b)
    (usedA : (s.voice a).state ≠ .free) (usedB : (s.voice b).state ≠ .free)
    (room : s.asrun.records.length + (joinRows s c r).length ≤ 256) :
    let t := completeBreak c s
    t.ch c = { s.ch c with queue := (s.ch c).queue.filter fun q => q.number != r.number }
      ∧ t.asrun = ⟨s.asrun.records ++ joinRows s c r, s.asrun.lost⟩
      ∧ t.voice a = Voice.freed ∧ t.voice b = Voice.freed
      ∧ (∀ v, v ≠ a → v ≠ b → t.voice v = s.voice v)
      ∧ (∀ n, (t.entry n).hold = (s.entry n).hold - (r.clips.count n
          + (if (s.voice a).clip = some n then 1 else 0)
          + if (s.voice b).clip = some n then 1 else 0)) := by
  have whole : completeBreak c s = removeRecord c r.number
      (releaseVoices [a, b] (asrunWriteAll (joinRows s c r) s)) := by
    rw [completeBreak, flying.flight]
    dsimp only
    rw [flight_voices hplan hv]
  have written := asrunWriteAll_room room
  have voice (v : Fin 16) : (asrunWriteAll (joinRows s c r) s).voice v = s.voice v :=
    voice_of_voices (asrunWriteAll_voices ..) v
  have start : s.Returned (fun _ => 0) (asrunWriteAll (joinRows s c r) s) :=
    (State.returned_none hf).of_eq (asrunWriteAll_memory ..) (asrunWriteAll_store ..)
  have channel (d : Fin 4) : (asrunWriteAll (joinRows s c r) s).ch d = s.ch d :=
    ch_of_chans (asrunWriteAll_chans ..) d
  rw [whole]
  generalize asrunWriteAll (joinRows s c r) s = y at *
  have back := start.trans (releaseVoices_returned start.1 (l := [a, b]) (by simpa using apart))
  have found : (releaseVoices [a, b] y).record c r.number = some r := by
    rw [State.record, ch_of_chans (releaseVoices_chans [a, b] y), channel]
    exact flying.record
  have all := back.trans (removeRecord_returned back.1 found)
  have freed (v : Fin 16) (hv : v ∈ [a, b]) (used : (s.voice v).state ≠ .free) :
      (removeRecord c r.number (releaseVoices [a, b] y)).voice v = Voice.freed := by
    rw [removeRecord_voice, releaseVoices_voice, voice, if_pos ⟨hv, used⟩]
  refine ⟨?_, ?_, freed a (by simp) usedA, freed b (by simp) usedB, fun v ha hb => ?_, fun n => ?_⟩
  · rw [removeRecord_ch found, if_pos rfl, ch_of_chans (releaseVoices_chans [a, b] y), channel]
  · rw [removeRecord_asrun, releaseVoices_asrun, written]
  · rw [removeRecord_voice, releaseVoices_voice, if_neg (by simp [ha, hb]), voice]
  · have holds : y.voiceHolds [a, b] n = (if (s.voice a).clip = some n then 1 else 0)
        + if (s.voice b).clip = some n then 1 else 0 := by
      simp [State.voiceHolds, State.voiceHold, voice, usedA, usedB]
    rw [all.2 n]
    simp only [DirEntry.less, holds]
    omega

/-- The completion of a joined break: the channel in NETWORK, then what the completion leaves. -/
theorem joinDone_leaves {plan : Plan} {a b : Fin 16} (hf : s.formed) (flying : s.Flying c r)
    (hplan : r.plan = some plan) (run : r.run = some u) (hv : plan.voices = some (a, b)) (apart : a ≠ b)
    (usedA : (s.voice a).state ≠ .free) (usedB : (s.voice b).state ≠ .free)
    (room : s.asrun.records.length + (joinRecords s c r plan u).length ≤ 256) :
    let t := completeBreak c (setChannelState c .network s)
    t.ch c = { s.ch c with
        state := .network, queue := (s.ch c).queue.filter fun q => q.number != r.number }
      ∧ t.asrun = ⟨s.asrun.records ++ joinRecords s c r plan u, s.asrun.lost⟩
      ∧ t.voice a = Voice.freed ∧ t.voice b = Voice.freed
      ∧ (∀ v, v ≠ a → v ≠ b → t.voice v = s.voice v)
      ∧ (∀ n, (t.entry n).hold = (s.entry n).hold - (r.clips.count n
          + (if (s.voice a).clip = some n then 1 else 0)
          + if (s.voice b).clip = some n then 1 else 0)) := by
  have channel := setChannelState_ch c .network s
  have voice (v : Fin 16) : (setChannelState c .network s).voice v = s.voice v :=
    setChannelState_voice ..
  have entry (n : Nat) : (setChannelState c .network s).entry n = s.entry n := setChannelState_entry ..
  have asrun : (setChannelState c .network s).asrun = s.asrun := setChannelState_asrun ..
  have formed : (setChannelState c .network s).formed := by
    have memory := (State.sameAround_of_eq (setChannelState_around (c := c) (s := s) .network)).memory
    exact ⟨memory ▸ hf.1, (setChannelState_store c .network s) ▸ hf.2⟩
  generalize setChannelState c .network s = w at *
  have rows := joinRows_records (w := w) (s := s) (c := c) entry hplan run
  have flies : w.Flying c r := flying.of_ch (by rw [channel])
  obtain ⟨own, records, freedA, freedB, others, holds⟩ := completeBreak_leaves formed flies hplan hv apart
    (by rw [voice]; exact usedA) (by rw [voice]; exact usedB) (by rw [rows, asrun]; exact room)
  rw [channel] at own
  rw [rows, asrun] at records
  refine ⟨own, records, freedA, freedB, fun v ha hb => (others v ha hb).trans (voice v), fun n => ?_⟩
  rw [holds, voice, voice, entry]

/-! ### The last voice's end (R71, R143) -/

/-- The finishing event of the last part of a joined break. -/
theorem takeFinished_joining {p : Part} {v : Fin 16} {k : EventKind} {a : AC}
    (joining : r.state = .joining) (run : r.run = some u)
    (found : u.parts.find? (fun x => x.voice == v && x.state == .sounding) = some p) :
    takeFinished c r v k a s = checkBreakClear c
      (modParts c r.number (onKind p.kind (Part.ends a k)) s) := by
  unfold takeFinished
  rw [parts_of_run run, found]
  exact if_pos joining

theorem join_endsWithTheLastVoice : joinEndsWithTheLastVoice := by
  intro s e rest c r u p opened settled events finishing owner flight record joining run found last
    state done v
  have row := exec_voiceEventDelivery opened settled events owner
  have taken : takeEvent ⟨c, .brk⟩ e (s.setEvents rest) = takeBreakEvent c e (s.setEvents rest) := rfl
  have event := takeBreakEvent_onAir (s := s.setEvents rest) (c := c) (e := e) (r := r) flight
  rw [if_neg finishing, takeFinished_joining joining run found] at event
  have flying : (s.setEvents rest).Flying c r := ⟨flight, record⟩
  have flies : (modParts c r.number (onKind p.kind (Part.ends (e.ac + e.shift) e.kind))
      (s.setEvents rest)).Flying c (mapParts (onKind p.kind (Part.ends (e.ac + e.shift) e.kind)) r) :=
    flying.modRecord (f := mapParts (onKind p.kind (Part.ends (e.ac + e.shift) e.kind))) (fun _ => rfl)
      (by rw [mapParts, joining]; rfl)
  have quiet : (mapParts (onKind p.kind (Part.ends (e.ac + e.shift) e.kind)) r).quiet = true := by
    refine quiet_of_parts fun y hy => ?_
    rw [mapParts_parts run] at hy
    obtain ⟨x, hx, rfl⟩ := List.mem_map.1 hy
    unfold onKind
    split
    · exact ⟨RunState.noConfusion, RunState.noConfusion⟩
    · next other => exact last x hx other
  have channel := modParts_ch c c r.number p.kind (Part.ends (e.ac + e.shift) e.kind) (s.setEvents rest)
  rw [if_pos rfl] at channel
  have marked : (modParts c r.number (onKind p.kind (Part.ends (e.ac + e.shift) e.kind))
      (s.setEvents rest)).setCh c { (modParts c r.number
        (onKind p.kind (Part.ends (e.ac + e.shift) e.kind)) (s.setEvents rest)).ch c with
          breakClear := true } = (s.setEvents rest).setCh c { s.ch c with
        breakClear := true, queue := withPart r.number p.kind done (s.ch c).queue } := by
    rw [channel, modParts_withPart, setCh_twice]
    rfl
  have ends := checkBreakClear_quiet flies joining quiet (by rw [channel]; exact state)
  rw [marked] at ends
  have gain : ((modParts c r.number (onKind p.kind (Part.ends (e.ac + e.shift) e.kind))
      (s.setEvents rest)).ch c).gain = (s.ch c).gain := by
    rw [channel]
    rfl
  rw [gain] at ends
  rw [row, taken, event, ends]
  refine ⟨fun moves => by rw [if_neg moves], fun plan a b unity hf hplan hv apart usedA usedB => ?_⟩
  intro rows room
  have own := State.ch_setCh_same (s.setEvents rest) c { s.ch c with
    breakClear := true, queue := withPart r.number p.kind done (s.ch c).queue }
  have flies' : ((s.setEvents rest).setCh c { s.ch c with
      breakClear := true, queue := withPart r.number p.kind done (s.ch c).queue }).Flying c
      (mapParts (onKind p.kind (Part.ends (e.ac + e.shift) e.kind)) r) :=
    flies.of_ch (by rw [own, channel]; rfl)
  have run' : (mapParts (onKind p.kind (Part.ends (e.ac + e.shift) e.kind)) r).run = some v := by
    rw [mapParts, run]
    rfl
  obtain ⟨channel', asrun, freedA, freedB, others, holds⟩ := joinDone_leaves
    (s := (s.setEvents rest).setCh c { s.ch c with
      breakClear := true, queue := withPart r.number p.kind done (s.ch c).queue })
    hf flies' hplan run' hv apart usedA usedB room
  have around := State.sameAround_of_eq ((completeBreak_around (c := c)).trans
    ((setChannelState_around (c := c) .network).trans ((State.setCh_around c (s.setEvents rest) { s.ch c with
      breakClear := true, queue := withPart r.number p.kind done (s.ch c).queue }).trans
        (State.setEvents_around c s rest))))
  have kept : (withPart r.number p.kind done (s.ch c).queue).filter (fun q => q.number != r.number) =
      (s.ch c).queue.filter fun q => q.number != r.number :=
    filter_changeRecord (f := mapParts (onKind p.kind done)) (fun _ => rfl) _
  rw [if_pos unity]
  generalize completeBreak c (setChannelState c .network _) = t at *
  rw [own] at channel'
  refine ⟨t, rfl, ?_, ?_, ?_, asrun, freedA, freedB, others, holds, around.ch, around.memory, around.clock⟩
  · rw [channel']
  · rw [channel']
    exact unity
  · rw [channel']
    exact kept

/-- Settles O28: the begin of a join, its end, and what its items are recorded as. -/
theorem joinBeginsAtTheReturn : Obligations.JoinBeginsAtTheReturn :=
  ⟨join_beginsAtTheReturn, join_endsWithTheLastVoice, joinedItems_areRecorded⟩

end Sys2Proof.Machine
end
